-- ==== Sys2Proof/Word.lean ====
section
/-! DEFINITION. The bit vectors of the block (00_scope.md R9): bit 0 is the least significant bit of each. -/

namespace Sys2Proof

/-- An unsigned byte, 0 to 255 (R9): an opcode, a row index on a port, a byte of the instruction stream. -/
abbrev Byte := BitVec 8

/-- The request word of one Reader port, 11 bits (30_encoding.md R68). -/
abbrev ReqWord := BitVec 11

/-- The packed ROM word, 26 bits (30_encoding.md R66). -/
abbrev RomWord := BitVec 26

/-- An address of the consumer's instruction stream.
PRESUMED (log 6): 16 bits, wrapping, from the spec's general-knowledge notes (92_eei_decisions.md D23). -/
abbrev Addr := BitVec 16

end Sys2Proof
end

