-- ==== Sys2Proof/Config.lean ====
section
/-! DEFINITION. The types of the block's parameters (00_scope.md R8, R10) and the default values of the two parameters
that are not a table: `INIT_POLICY` and `READERS`. The default of the parameter `SPEC` is in Machine/Rom.lean.
The block has no free value: every response bit the spec leaves open is given no value at all (log 9). -/

namespace Sys2Proof

/-- `Mode` (00_scope.md R10, 30_encoding.md R62): the twelve addressing-mode tags; the set is closed (decision D24). -/
inductive Mode where
  | implicit
  | accumulator
  | immediate
  | zeroPage
  | zeroPageX
  | zeroPageY
  | absolute
  | absoluteX
  | absoluteY
  | indirectX
  | indirectY
  | relative
  deriving DecidableEq, Repr

/-- `Mnemonic` (30_encoding.md R64): the 34 names of the default vocabulary, in id order.
`other` is any further symbol a literal specification may use: `MNEM` is part of the open parameter `SPEC`
(93_implementation_defined.md U9), and such a mnemonic has no id (U18). DEDUCED (log 17). -/
inductive Mnemonic where
  | brk | nop | tax | tay | tsx | txa | txs | tya | pha | php
  | pla | plp | rti | rts | inx | iny | dex | dey | clc | cld
  | cli | clv | sec | sed | sei | and | ora | lsr | asl | bcc
  | bcs | beq | lda | sta
  | other (name : String)
  deriving DecidableEq, Repr

/-- `Penalty` (00_scope.md R10, 30_encoding.md R65): `p` the page-crossing marker, `b` the branch marker. -/
structure Penalty where
  p : Bool
  b : Bool
  deriving DecidableEq, Repr

/-- `Descriptor` (00_scope.md R10, 30_encoding.md R61): one row of the ROM. The abstract fields are natural numbers:
what a valid table asks of them is checked by BUILD, not by the type. DEDUCED (log 17). -/
structure Descriptor where
  opcode     : Byte
  mnemonic   : Mnemonic
  length     : Nat
  baseCycles : Nat
  mode       : Mode
  penalty    : Penalty
  deriving DecidableEq, Repr

/-- `INIT_POLICY` (00_scope.md R8): when BUILD runs. Either is acceptable, so it is a field of the state and every
statement quantifies over it. -/
inductive InitPolicy where
  | eager
  | lazy
  deriving DecidableEq, Repr

/-- The default of `INIT_POLICY` (00_scope.md R8, decision D9). -/
def Config.defaultPolicy : InitPolicy := .lazy

/-- The default of `READERS` (00_scope.md R8, decision D18): the number of reader ports after reset. -/
def Config.defaultReaders : Nat := 1

end Sys2Proof
end

