-- ==== Sys2Proof/Machine/Modes.lean ====
section
/-! DEFINITION. The numeric vocabularies of the block: operand bytes and expected length per mode, mode codes, mnemonic
ids and names (30_encoding.md R62, R63, R64, R75). -/

namespace Sys2Proof.Machine

/-- Operand bytes of a mode (30_encoding.md R62, last column).
PRESUMED (log 5) for zeroPageX, zeroPageY, absoluteX, absoluteY, indirectX, indirectY and relative (decision D20). -/
def operandBytes : Mode → Nat
  | .implicit => 0
  | .accumulator => 0
  | .immediate => 1
  | .zeroPage => 1
  | .zeroPageX => 1
  | .zeroPageY => 1
  | .absolute => 2
  | .absoluteX => 2
  | .absoluteY => 2
  | .indirectX => 1
  | .indirectY => 1
  | .relative => 1

/-- `expectedLength` (30_encoding.md R63), the fixed mode-to-length map BUILD checks rows against.
PRESUMED (log 5) for the same seven modes (decision D20). -/
def expectedLength : Mode → Nat
  | .implicit => 1
  | .accumulator => 1
  | .immediate => 2
  | .zeroPage => 2
  | .zeroPageX => 2
  | .zeroPageY => 2
  | .absolute => 3
  | .absoluteX => 3
  | .absoluteY => 3
  | .indirectX => 2
  | .indirectY => 2
  | .relative => 2

/-- The 4-bit mode code (30_encoding.md R62, decision D4). -/
def modeCode : Mode → BitVec 4
  | .implicit => 0
  | .accumulator => 1
  | .immediate => 2
  | .zeroPage => 3
  | .zeroPageX => 4
  | .zeroPageY => 5
  | .absolute => 6
  | .absoluteX => 7
  | .absoluteY => 8
  | .indirectX => 9
  | .indirectY => 10
  | .relative => 11

/-- The mode a 4-bit code stands for; codes 12 to 15 are reserved (30_encoding.md R62, R73). -/
def modeOfCode (c : BitVec 4) : Option Mode :=
  match c.toNat with
  | 0 => some .implicit
  | 1 => some .accumulator
  | 2 => some .immediate
  | 3 => some .zeroPage
  | 4 => some .zeroPageX
  | 5 => some .zeroPageY
  | 6 => some .absolute
  | 7 => some .absoluteX
  | 8 => some .absoluteY
  | 9 => some .indirectX
  | 10 => some .indirectY
  | 11 => some .relative
  | _ => none

/-- The vocabulary `MNEM` in id order (30_encoding.md R64, decision D5): the name at place `k` has id `k`. -/
def vocabulary : List Mnemonic :=
  [.brk, .nop, .tax, .tay, .tsx, .txa, .txs, .tya, .pha, .php,
   .pla, .plp, .rti, .rts, .inx, .iny, .dex, .dey, .clc, .cld,
   .cli, .clv, .sec, .sed, .sei, .and, .ora, .lsr, .asl, .bcc,
   .bcs, .beq, .lda, .sta]

/-- The 6-bit id of a mnemonic (30_encoding.md R64); a symbol outside the 34 names has none (R66, U18). -/
def mnemonicId : Mnemonic → Option (BitVec 6)
  | .brk => some 0
  | .nop => some 1
  | .tax => some 2
  | .tay => some 3
  | .tsx => some 4
  | .txa => some 5
  | .txs => some 6
  | .tya => some 7
  | .pha => some 8
  | .php => some 9
  | .pla => some 10
  | .plp => some 11
  | .rti => some 12
  | .rts => some 13
  | .inx => some 14
  | .iny => some 15
  | .dex => some 16
  | .dey => some 17
  | .clc => some 18
  | .cld => some 19
  | .cli => some 20
  | .clv => some 21
  | .sec => some 22
  | .sed => some 23
  | .sei => some 24
  | .and => some 25
  | .ora => some 26
  | .lsr => some 27
  | .asl => some 28
  | .bcc => some 29
  | .bcs => some 30
  | .beq => some 31
  | .lda => some 32
  | .sta => some 33
  | .other _ => none

/-- The mnemonic of a 6-bit id; ids 34 to 63 are unassigned (30_encoding.md R64, R73). -/
def mnemonicOfId (c : BitVec 6) : Option Mnemonic :=
  vocabulary[c.toNat]?

/-- The symbol itself, "a short symbolic name" (30_encoding.md R61, R75): three upper-case letters for the 34 names. -/
def mnemonicName : Mnemonic → String
  | .brk => "BRK"
  | .nop => "NOP"
  | .tax => "TAX"
  | .tay => "TAY"
  | .tsx => "TSX"
  | .txa => "TXA"
  | .txs => "TXS"
  | .tya => "TYA"
  | .pha => "PHA"
  | .php => "PHP"
  | .pla => "PLA"
  | .plp => "PLP"
  | .rti => "RTI"
  | .rts => "RTS"
  | .inx => "INX"
  | .iny => "INY"
  | .dex => "DEX"
  | .dey => "DEY"
  | .clc => "CLC"
  | .cld => "CLD"
  | .cli => "CLI"
  | .clv => "CLV"
  | .sec => "SEC"
  | .sed => "SED"
  | .sei => "SEI"
  | .and => "AND"
  | .ora => "ORA"
  | .lsr => "LSR"
  | .asl => "ASL"
  | .bcc => "BCC"
  | .bcs => "BCS"
  | .beq => "BEQ"
  | .lda => "LDA"
  | .sta => "STA"
  | .other name => name

/-- Operand form per mode as conventionally written, `MNE` standing for the mnemonic (30_encoding.md R75).
PRESUMED (log 5): general knowledge in the spec; the block does not use it. -/
def operandForm : Mode → String
  | .implicit => "MNE"
  | .accumulator => "MNE A"
  | .immediate => "MNE #$nn"
  | .zeroPage => "MNE $nn"
  | .zeroPageX => "MNE $nn,X"
  | .zeroPageY => "MNE $nn,Y"
  | .absolute => "MNE $nnnn"
  | .absoluteX => "MNE $nnnn,X"
  | .absoluteY => "MNE $nnnn,Y"
  | .indirectX => "MNE ($nn,X)"
  | .indirectY => "MNE ($nn),Y"
  | .relative => "MNE label"

end Sys2Proof.Machine
end

