-- ==== Sys2Proof/Machine/Packing.lean ====
section
/-! DEFINITION. The hardware image of the table: the 26-bit packed ROM word and the index entry (30_encoding.md R66,
R67). The abstract descriptor is normative; no meaning of an instruction reads the packed form. -/

namespace Sys2Proof.Machine

/-- `pack` (30_encoding.md R66): opcode, mnemonic id, length, base cycles, mode code, `B`, `P`, most significant first.
Defined only for `base_cycles <= 15`, `length <= 3` and a mnemonic with an id; other descriptors have no image (U18). -/
def pack (d : Descriptor) : Option RomWord :=
  match mnemonicId d.mnemonic with
  | none => none
  | some mn =>
    if d.length ≤ 3 ∧ d.baseCycles ≤ 15 then
      some (d.opcode ++ mn ++ BitVec.ofNat 2 d.length ++ BitVec.ofNat 4 d.baseCycles ++ modeCode d.mode
        ++ BitVec.ofBool d.penalty.b ++ BitVec.ofBool d.penalty.p)
    else none

/-- The descriptor a packed word is the image of, if it is one: a length of 0, a mode code from 12 and a mnemonic id
from 34 occur in no word the block produces (30_encoding.md R62, R64, R66, R73). -/
def unpack (w : RomWord) : Option Descriptor :=
  match mnemonicOfId (w.extractLsb' 12 6), modeOfCode (w.extractLsb' 2 4) with
  | some mn, some m =>
    if w.extractLsb' 10 2 = 0 then none
    else some
      { opcode := w.extractLsb' 18 8
        mnemonic := mn
        length := (w.extractLsb' 10 2).toNat
        baseCycles := (w.extractLsb' 6 4).toNat
        mode := m
        penalty := { p := w.getLsbD 0, b := w.getLsbD 1 } }
  | _, _ => none

/-- `ROW_W` for a table of `n` rows (00_scope.md R8): `max(1, ceil(log2(n)))`. -/
def rowWidth (n : Nat) : Nat := max 1 (Nat.clog 2 n)

/-- The hardware image of one index entry (30_encoding.md R67): the `present` bit, and the row bits where they have a
meaning. When `present = 0` the row bits have no value here, so nothing can select a row with them. -/
structure IndexEntry where
  present : Bool
  row     : Option Nat
  deriving DecidableEq, Repr

/-- `IDX[b]` as `present ++ row` (30_encoding.md R67). -/
def indexEntry : Option Nat → IndexEntry
  | some i => { present := true, row := some i }
  | none => { present := false, row := none }

/-- The `1 + rowW` bits of an entry as a number, where all of them have a value (30_encoding.md R67). -/
def IndexEntry.bits (rowW : Nat) (e : IndexEntry) : Option Nat :=
  e.row.map (fun i => (if e.present then 2 ^ rowW else 0) + i)

end Sys2Proof.Machine
end

