-- ==== Sys2Proof/Syntax.lean ====
section
/-! DEFINITION. The whole instruction set as abstract terms: one constructor per row of spec/opcode_table.json
(7 command rows, 69 ROM rows), and `Code`, the two kinds of encoded form the spec has (30_encoding.md, opening text):
the 11-bit request word on a Reader port and the opcode byte of the instruction stream. -/

namespace Sys2Proof

/-- An encoded instruction: a request word (30_encoding.md R68) or an opcode byte (R60: "The opcode byte alone selects
the instruction and its addressing mode"). Operand bytes of the stream are not part of it: the block never sees them
(R70, R107). -/
inductive Code where
  | request (w : ReqWord)
  | opcode (b : Byte)
  deriving DecidableEq, Repr

/-- One constructor per row of the opcode table. A command keeps the bits its encoding ignores, so that no bit of a
request word is lost. A ROM row takes no operand ("the ROM row takes none (it is a constant)", every row rule). -/
inductive Instr where
  /-- IDLE, request `0b000 ++ x` (40_construct.md R99). -/
  | idle (x : Byte)
  /-- LOOKUP, request `0b001 ++ b` (41_lookup.md R100). -/
  | lookup (b : Byte)
  /-- ROWREAD, request `0b010 ++ i` (42_enumerate.md R111). -/
  | rowRead (i : Byte)
  /-- BUILD, request `0b011 ++ x` (40_construct.md R90). -/
  | build (x : Byte)
  /-- COUNT, request `0b100 ++ x` (42_enumerate.md R113). -/
  | count (x : Byte)
  /-- STATUS, request `0b101 ++ x` (40_construct.md R98). -/
  | status (x : Byte)
  /-- A reserved command, request `code ++ x` with `code` = `0b110` or `0b111` (30_encoding.md R68, R73). -/
  | reserved (code : BitVec 3) (x : Byte)
  /-- BRK Implicit, opcode byte `0x00` (R121). -/
  | brk
  /-- NOP Implicit, opcode byte `0xEA` (R122). -/
  | nop
  /-- TAX Implicit, opcode byte `0xAA` (R123). -/
  | tax
  /-- TAY Implicit, opcode byte `0xA8` (R124). -/
  | tay
  /-- TSX Implicit, opcode byte `0xBA` (R125). -/
  | tsx
  /-- TXA Implicit, opcode byte `0x8A` (R126). -/
  | txa
  /-- TXS Implicit, opcode byte `0x9A` (R127). -/
  | txs
  /-- TYA Implicit, opcode byte `0x98` (R128). -/
  | tya
  /-- PHA Implicit, opcode byte `0x48` (R129). -/
  | pha
  /-- PHP Implicit, opcode byte `0x08` (R130). -/
  | php
  /-- PLA Implicit, opcode byte `0x68` (R131). -/
  | pla
  /-- PLP Implicit, opcode byte `0x28` (R132). -/
  | plp
  /-- RTI Implicit, opcode byte `0x40` (R133). -/
  | rti
  /-- RTS Implicit, opcode byte `0x60` (R134). -/
  | rts
  /-- INX Implicit, opcode byte `0xE8` (R135). -/
  | inx
  /-- INY Implicit, opcode byte `0xC8` (R136). -/
  | iny
  /-- DEX Implicit, opcode byte `0xCA` (R137). -/
  | dex
  /-- DEY Implicit, opcode byte `0x88` (R138). -/
  | dey
  /-- CLC Implicit, opcode byte `0x18` (R139). -/
  | clc
  /-- CLD Implicit, opcode byte `0xD8` (R140). -/
  | cld
  /-- CLI Implicit, opcode byte `0x58` (R141). -/
  | cli
  /-- CLV Implicit, opcode byte `0xB8` (R142). -/
  | clv
  /-- SEC Implicit, opcode byte `0x38` (R143). -/
  | sec
  /-- SED Implicit, opcode byte `0xF8` (R144). -/
  | sed
  /-- SEI Implicit, opcode byte `0x78` (R145). -/
  | sei
  /-- AND Immediate, opcode byte `0x29` (R151). -/
  | andImm
  /-- AND ZeroPage, opcode byte `0x25` (R152). -/
  | andZp
  /-- AND ZeroPageX, opcode byte `0x35` (R153). -/
  | andZpX
  /-- AND Absolute, opcode byte `0x2D` (R154). -/
  | andAbs
  /-- AND AbsoluteX, opcode byte `0x3D` (R155). -/
  | andAbsX
  /-- AND AbsoluteY, opcode byte `0x39` (R156). -/
  | andAbsY
  /-- AND IndirectX, opcode byte `0x21` (R157). -/
  | andIndX
  /-- AND IndirectY, opcode byte `0x31` (R158). -/
  | andIndY
  /-- ORA Immediate, opcode byte `0x09` (R159). -/
  | oraImm
  /-- ORA ZeroPage, opcode byte `0x05` (R160). -/
  | oraZp
  /-- ORA ZeroPageX, opcode byte `0x15` (R161). -/
  | oraZpX
  /-- ORA Absolute, opcode byte `0x0D` (R162). -/
  | oraAbs
  /-- ORA AbsoluteX, opcode byte `0x1D` (R163). -/
  | oraAbsX
  /-- ORA AbsoluteY, opcode byte `0x19` (R164). -/
  | oraAbsY
  /-- ORA IndirectX, opcode byte `0x01` (R165). -/
  | oraIndX
  /-- ORA IndirectY, opcode byte `0x11` (R166). -/
  | oraIndY
  /-- LSR Accumulator, opcode byte `0x4A` (R167). -/
  | lsrAcc
  /-- LSR ZeroPage, opcode byte `0x46` (R168). -/
  | lsrZp
  /-- LSR ZeroPageX, opcode byte `0x56` (R169). -/
  | lsrZpX
  /-- LSR Absolute, opcode byte `0x4E` (R170). -/
  | lsrAbs
  /-- LSR AbsoluteX, opcode byte `0x5E` (R171). -/
  | lsrAbsX
  /-- ASL Accumulator, opcode byte `0x0A` (R172). -/
  | aslAcc
  /-- ASL ZeroPage, opcode byte `0x06` (R173). -/
  | aslZp
  /-- ASL ZeroPageX, opcode byte `0x16` (R174). -/
  | aslZpX
  /-- ASL Absolute, opcode byte `0x0E` (R175). -/
  | aslAbs
  /-- ASL AbsoluteX, opcode byte `0x1E` (R176). -/
  | aslAbsX
  /-- BCC Relative, opcode byte `0x90` (R191). -/
  | bcc
  /-- BCS Relative, opcode byte `0xB0` (R192). -/
  | bcs
  /-- BEQ Relative, opcode byte `0xF0` (R193). -/
  | beq
  /-- LDA Immediate, opcode byte `0xA9` (R201). -/
  | ldaImm
  /-- LDA ZeroPage, opcode byte `0xA5` (R202). -/
  | ldaZp
  /-- LDA ZeroPageX, opcode byte `0xB5` (R203). -/
  | ldaZpX
  /-- LDA Absolute, opcode byte `0xAD` (R204). -/
  | ldaAbs
  /-- LDA AbsoluteX, opcode byte `0xBD` (R205). -/
  | ldaAbsX
  /-- LDA AbsoluteY, opcode byte `0xB9` (R206). -/
  | ldaAbsY
  /-- LDA IndirectX, opcode byte `0xA1` (R207). -/
  | ldaIndX
  /-- LDA IndirectY, opcode byte `0xB1` (R208). -/
  | ldaIndY
  /-- STA ZeroPage, opcode byte `0x85` (R209). -/
  | staZp
  /-- STA ZeroPageX, opcode byte `0x95` (R210). -/
  | staZpX
  /-- STA Absolute, opcode byte `0x8D` (R211). -/
  | staAbs
  /-- STA AbsoluteX, opcode byte `0x9D` (R212). -/
  | staAbsX
  /-- STA AbsoluteY, opcode byte `0x99` (R213). -/
  | staAbsY
  /-- STA IndirectX, opcode byte `0x81` (R214). -/
  | staIndX
  /-- STA IndirectY, opcode byte `0x91` (R215). -/
  | staIndY
  deriving DecidableEq, Repr

end Sys2Proof
end

