-- ==== Sys2Proof/WellFormed.lean ====
section
/-! DEFINITION. The checks on authored data: instructions, descriptors and literal specifications. -/

namespace Sys2Proof

/-- An instruction is well formed when it has an encoding: a reserved command has one of the two reserved codes
`0b110`, `0b111` (30_encoding.md R68). Every other constructor holds exactly the bits of its encoding. -/
def Instr.wf : Instr → Bool
  | .reserved code _ => code == 6 || code == 7
  | _ => true

/-- The `length` check of BUILD on one row (40_construct.md R91). -/
def Descriptor.lengthOk (d : Descriptor) : Bool := d.length == Machine.expectedLength d.mode

/-- A descriptor has a hardware image when `pack` is defined on it (30_encoding.md R66). -/
def Descriptor.packable (d : Descriptor) : Bool := (Machine.pack d).isSome

/-- The two conditions a literal specification must meet (10_state.md R33 item 1, 40_construct.md R91, R92): every
length fits its mode, and no opcode occurs twice. -/
abbrev SpecValid (spec : List Descriptor) : Prop :=
  (∀ d ∈ spec, d.length = Machine.expectedLength d.mode) ∧ (spec.map (·.opcode)).Nodup

end Sys2Proof
end

