-- ==== Sys2Proof/Decode.lean ====
section
/-! DEFINITION. The decoder, total on both kinds of code, and after it the encoder. Every request word decodes
(30_encoding.md R68, R73); an opcode byte with no row of the default map is rejected by name (R71, R72). -/

namespace Sys2Proof

/-- Why a code is no instruction: an opcode byte that is absent from the opcode map (30_encoding.md R72). It is not an
error of the block; `step` looks the byte up all the same and the block answers `Miss`. -/
inductive DecodeError where
  | absentOpcode (b : Byte)
  deriving DecidableEq, Repr

/-- The command of a request word: `req[10:8]` selects it, `req[7:0]` is its argument (30_encoding.md R68). -/
def decodeRequest (w : ReqWord) : Instr :=
  match (w.extractLsb' 8 3).toNat with
  | 0 => .idle (w.extractLsb' 0 8)
  | 1 => .lookup (w.extractLsb' 0 8)
  | 2 => .rowRead (w.extractLsb' 0 8)
  | 3 => .build (w.extractLsb' 0 8)
  | 4 => .count (w.extractLsb' 0 8)
  | 5 => .status (w.extractLsb' 0 8)
  | _ => .reserved (w.extractLsb' 8 3) (w.extractLsb' 0 8)

/-- The opcode map of 43_rom_implied.md. -/
def opcodeMapImplied : List (Byte × Instr) :=
  [(0x00, .brk), (0xEA, .nop), (0xAA, .tax), (0xA8, .tay), (0xBA, .tsx), (0x8A, .txa),
   (0x9A, .txs), (0x98, .tya), (0x48, .pha), (0x08, .php), (0x68, .pla), (0x28, .plp),
   (0x40, .rti), (0x60, .rts), (0xE8, .inx), (0xC8, .iny), (0xCA, .dex), (0x88, .dey),
   (0x18, .clc), (0xD8, .cld), (0x58, .cli), (0xB8, .clv), (0x38, .sec), (0xF8, .sed),
   (0x78, .sei)]

/-- The opcode map of 44_rom_logic_shift.md, AND and ORA. -/
def opcodeMapLogic : List (Byte × Instr) :=
  [(0x29, .andImm), (0x25, .andZp), (0x35, .andZpX), (0x2D, .andAbs), (0x3D, .andAbsX), (0x39, .andAbsY),
   (0x21, .andIndX), (0x31, .andIndY), (0x09, .oraImm), (0x05, .oraZp), (0x15, .oraZpX), (0x0D, .oraAbs),
   (0x1D, .oraAbsX), (0x19, .oraAbsY), (0x01, .oraIndX), (0x11, .oraIndY)]

/-- The opcode map of 44_rom_logic_shift.md, LSR and ASL. -/
def opcodeMapShift : List (Byte × Instr) :=
  [(0x4A, .lsrAcc), (0x46, .lsrZp), (0x56, .lsrZpX), (0x4E, .lsrAbs), (0x5E, .lsrAbsX), (0x0A, .aslAcc),
   (0x06, .aslZp), (0x16, .aslZpX), (0x0E, .aslAbs), (0x1E, .aslAbsX)]

/-- The opcode map of 45_rom_branch.md. -/
def opcodeMapBranch : List (Byte × Instr) :=
  [(0x90, .bcc), (0xB0, .bcs), (0xF0, .beq)]

/-- The opcode map of 46_rom_load_store.md. -/
def opcodeMapLoadStore : List (Byte × Instr) :=
  [(0xA9, .ldaImm), (0xA5, .ldaZp), (0xB5, .ldaZpX), (0xAD, .ldaAbs), (0xBD, .ldaAbsX), (0xB9, .ldaAbsY),
   (0xA1, .ldaIndX), (0xB1, .ldaIndY), (0x85, .staZp), (0x95, .staZpX), (0x8D, .staAbs), (0x9D, .staAbsX),
   (0x99, .staAbsY), (0x81, .staIndX), (0x91, .staIndY)]

/-- The opcode map (30_encoding.md R71, 20_memory.md R44): opcode byte and instruction, in authoring order. -/
def opcodeMap : List (Byte × Instr) :=
  opcodeMapImplied ++ (opcodeMapLogic ++ (opcodeMapShift ++ (opcodeMapBranch ++ opcodeMapLoadStore)))

/-- The instruction of an opcode byte; the whole byte is the key (30_encoding.md R60). -/
def decodeOpcode (b : Byte) : Except DecodeError Instr :=
  match opcodeMap.lookup b with
  | some i => .ok i
  | none => .error (.absentOpcode b)

/-- The decoder. -/
def decode : Code → Except DecodeError Instr
  | .request w => .ok (decodeRequest w)
  | .opcode b => decodeOpcode b

/-- The request word of a command code and its argument (30_encoding.md R68). -/
def requestWord (code : BitVec 3) (arg : Byte) : ReqWord := code ++ arg

/-- The encoder: the request word of a command, the opcode byte of a ROM row. -/
def encode : Instr → Code
  | .idle x => .request (requestWord 0b000 x)
  | .lookup b => .request (requestWord 0b001 b)
  | .rowRead i => .request (requestWord 0b010 i)
  | .build x => .request (requestWord 0b011 x)
  | .count x => .request (requestWord 0b100 x)
  | .status x => .request (requestWord 0b101 x)
  | .reserved code x => .request (requestWord code x)
  | .brk => .opcode 0x00
  | .nop => .opcode 0xEA
  | .tax => .opcode 0xAA
  | .tay => .opcode 0xA8
  | .tsx => .opcode 0xBA
  | .txa => .opcode 0x8A
  | .txs => .opcode 0x9A
  | .tya => .opcode 0x98
  | .pha => .opcode 0x48
  | .php => .opcode 0x08
  | .pla => .opcode 0x68
  | .plp => .opcode 0x28
  | .rti => .opcode 0x40
  | .rts => .opcode 0x60
  | .inx => .opcode 0xE8
  | .iny => .opcode 0xC8
  | .dex => .opcode 0xCA
  | .dey => .opcode 0x88
  | .clc => .opcode 0x18
  | .cld => .opcode 0xD8
  | .cli => .opcode 0x58
  | .clv => .opcode 0xB8
  | .sec => .opcode 0x38
  | .sed => .opcode 0xF8
  | .sei => .opcode 0x78
  | .andImm => .opcode 0x29
  | .andZp => .opcode 0x25
  | .andZpX => .opcode 0x35
  | .andAbs => .opcode 0x2D
  | .andAbsX => .opcode 0x3D
  | .andAbsY => .opcode 0x39
  | .andIndX => .opcode 0x21
  | .andIndY => .opcode 0x31
  | .oraImm => .opcode 0x09
  | .oraZp => .opcode 0x05
  | .oraZpX => .opcode 0x15
  | .oraAbs => .opcode 0x0D
  | .oraAbsX => .opcode 0x1D
  | .oraAbsY => .opcode 0x19
  | .oraIndX => .opcode 0x01
  | .oraIndY => .opcode 0x11
  | .lsrAcc => .opcode 0x4A
  | .lsrZp => .opcode 0x46
  | .lsrZpX => .opcode 0x56
  | .lsrAbs => .opcode 0x4E
  | .lsrAbsX => .opcode 0x5E
  | .aslAcc => .opcode 0x0A
  | .aslZp => .opcode 0x06
  | .aslZpX => .opcode 0x16
  | .aslAbs => .opcode 0x0E
  | .aslAbsX => .opcode 0x1E
  | .bcc => .opcode 0x90
  | .bcs => .opcode 0xB0
  | .beq => .opcode 0xF0
  | .ldaImm => .opcode 0xA9
  | .ldaZp => .opcode 0xA5
  | .ldaZpX => .opcode 0xB5
  | .ldaAbs => .opcode 0xAD
  | .ldaAbsX => .opcode 0xBD
  | .ldaAbsY => .opcode 0xB9
  | .ldaIndX => .opcode 0xA1
  | .ldaIndY => .opcode 0xB1
  | .staZp => .opcode 0x85
  | .staZpX => .opcode 0x95
  | .staAbs => .opcode 0x8D
  | .staAbsX => .opcode 0x9D
  | .staAbsY => .opcode 0x99
  | .staIndX => .opcode 0x81
  | .staIndY => .opcode 0x91

/-- The code of a row of spec/opcode_table.json with `nbits` bits (in whole bytes) and bits `w`: a ROM row is the opcode
byte (8 bits), a command the 11-bit request word, which stands in 16 bits with the five high bits zero. DESIGN CHOICE (log 11). -/
def codeOfTableWord (nbits w : Nat) : Option Code :=
  if nbits ≤ 8 then
    if w < 256 then some (.opcode (BitVec.ofNat 8 w)) else none
  else if nbits ≤ 16 then
    if w < 2048 then some (.request (BitVec.ofNat 11 w)) else none
  else none

/-- The instruction the decoder reads from a table word. -/
def decodeTableWord (nbits w : Nat) : Option Instr :=
  match codeOfTableWord nbits w with
  | none => none
  | some c =>
    match decode c with
    | .ok i => some i
    | .error _ => none

end Sys2Proof
end

