-- ==== Sys2Proof/Machine/Memory.lean ====
section
/-! DEFINITION. The consumer's instruction stream: a list of (address, byte) cells in one canonical form, addresses
strictly rising and inside the 16-bit address space. An address that is not listed holds no byte the engine has
supplied, and reading it gives none (DESIGN CHOICE, log 7). The block itself never reads or writes it: it "sees of it exactly one byte
per lookup, handed over by the engine" (20_memory.md, opening text). -/

namespace Sys2Proof.Machine

/-- The bytes of the instruction stream. -/
abbrev Mem := List Host.Cell

/-- The byte at an address, if the stream has one there. -/
def Mem.read (m : Mem) (a : Addr) : Option Byte := m.lookup a.toNat

/-- Put a byte at key `k`, keeping the keys strictly rising. -/
def Mem.insert (k : Nat) (b : Byte) : Mem → Mem
  | [] => [(k, b)]
  | (k', b') :: m =>
    if k < k' then (k, b) :: (k', b') :: m
    else if k = k' then (k, b) :: m
    else (k', b') :: Mem.insert k b m

/-- Place a byte of the stream. No step of the machine does (20_memory.md R52); a stream is placed from outside. -/
def Mem.write (m : Mem) (a : Addr) (b : Byte) : Mem := Mem.insert a.toNat b m

/-- Place consecutive bytes, the first at `a`. -/
def Mem.writeBytes (m : Mem) (a : Addr) : List Byte → Mem
  | [] => m
  | b :: bs => Mem.writeBytes (Mem.write m a b) (a + 1) bs

/-- The canonical form. -/
abbrev Mem.wf (m : Mem) : Prop := m.Pairwise (fun c d => c.1 < d.1) ∧ ∀ c ∈ m, c.1 < 65536

end Sys2Proof.Machine
end

