-- ==== Sys2Proof/Machine/Rom.lean ====
section
/-! DEFINITION. The default contents of the parameter `SPEC`: 69 rows, one definition each, in the authoring order of
30_encoding.md R71 (files 43_rom_implied.md to 46_rom_load_store.md).
PRESUMED (log 4): of these rows the source prints three (`0xA9`, `0x85`, `0xE8`); the other 66 are the published 6502
values, which the spec marks as general knowledge (decisions D1, D2, D3). -/

namespace Sys2Proof.Machine

/-- Row 0: BRK Implicit (R121). -/
def rowBrk : Descriptor :=
  { opcode := 0x00, mnemonic := .brk, length := 1, baseCycles := 7, mode := .implicit, penalty := { p := false, b := false } }

/-- Row 1: NOP Implicit (R122). -/
def rowNop : Descriptor :=
  { opcode := 0xEA, mnemonic := .nop, length := 1, baseCycles := 2, mode := .implicit, penalty := { p := false, b := false } }

/-- Row 2: TAX Implicit (R123). -/
def rowTax : Descriptor :=
  { opcode := 0xAA, mnemonic := .tax, length := 1, baseCycles := 2, mode := .implicit, penalty := { p := false, b := false } }

/-- Row 3: TAY Implicit (R124). -/
def rowTay : Descriptor :=
  { opcode := 0xA8, mnemonic := .tay, length := 1, baseCycles := 2, mode := .implicit, penalty := { p := false, b := false } }

/-- Row 4: TSX Implicit (R125). -/
def rowTsx : Descriptor :=
  { opcode := 0xBA, mnemonic := .tsx, length := 1, baseCycles := 2, mode := .implicit, penalty := { p := false, b := false } }

/-- Row 5: TXA Implicit (R126). -/
def rowTxa : Descriptor :=
  { opcode := 0x8A, mnemonic := .txa, length := 1, baseCycles := 2, mode := .implicit, penalty := { p := false, b := false } }

/-- Row 6: TXS Implicit (R127). -/
def rowTxs : Descriptor :=
  { opcode := 0x9A, mnemonic := .txs, length := 1, baseCycles := 2, mode := .implicit, penalty := { p := false, b := false } }

/-- Row 7: TYA Implicit (R128). -/
def rowTya : Descriptor :=
  { opcode := 0x98, mnemonic := .tya, length := 1, baseCycles := 2, mode := .implicit, penalty := { p := false, b := false } }

/-- Row 8: PHA Implicit (R129). -/
def rowPha : Descriptor :=
  { opcode := 0x48, mnemonic := .pha, length := 1, baseCycles := 3, mode := .implicit, penalty := { p := false, b := false } }

/-- Row 9: PHP Implicit (R130). -/
def rowPhp : Descriptor :=
  { opcode := 0x08, mnemonic := .php, length := 1, baseCycles := 3, mode := .implicit, penalty := { p := false, b := false } }

/-- Row 10: PLA Implicit (R131). -/
def rowPla : Descriptor :=
  { opcode := 0x68, mnemonic := .pla, length := 1, baseCycles := 4, mode := .implicit, penalty := { p := false, b := false } }

/-- Row 11: PLP Implicit (R132). -/
def rowPlp : Descriptor :=
  { opcode := 0x28, mnemonic := .plp, length := 1, baseCycles := 4, mode := .implicit, penalty := { p := false, b := false } }

/-- Row 12: RTI Implicit (R133). -/
def rowRti : Descriptor :=
  { opcode := 0x40, mnemonic := .rti, length := 1, baseCycles := 6, mode := .implicit, penalty := { p := false, b := false } }

/-- Row 13: RTS Implicit (R134). -/
def rowRts : Descriptor :=
  { opcode := 0x60, mnemonic := .rts, length := 1, baseCycles := 6, mode := .implicit, penalty := { p := false, b := false } }

/-- Row 14: INX Implicit (R135). -/
def rowInx : Descriptor :=
  { opcode := 0xE8, mnemonic := .inx, length := 1, baseCycles := 2, mode := .implicit, penalty := { p := false, b := false } }

/-- Row 15: INY Implicit (R136). -/
def rowIny : Descriptor :=
  { opcode := 0xC8, mnemonic := .iny, length := 1, baseCycles := 2, mode := .implicit, penalty := { p := false, b := false } }

/-- Row 16: DEX Implicit (R137). -/
def rowDex : Descriptor :=
  { opcode := 0xCA, mnemonic := .dex, length := 1, baseCycles := 2, mode := .implicit, penalty := { p := false, b := false } }

/-- Row 17: DEY Implicit (R138). -/
def rowDey : Descriptor :=
  { opcode := 0x88, mnemonic := .dey, length := 1, baseCycles := 2, mode := .implicit, penalty := { p := false, b := false } }

/-- Row 18: CLC Implicit (R139). -/
def rowClc : Descriptor :=
  { opcode := 0x18, mnemonic := .clc, length := 1, baseCycles := 2, mode := .implicit, penalty := { p := false, b := false } }

/-- Row 19: CLD Implicit (R140). -/
def rowCld : Descriptor :=
  { opcode := 0xD8, mnemonic := .cld, length := 1, baseCycles := 2, mode := .implicit, penalty := { p := false, b := false } }

/-- Row 20: CLI Implicit (R141). -/
def rowCli : Descriptor :=
  { opcode := 0x58, mnemonic := .cli, length := 1, baseCycles := 2, mode := .implicit, penalty := { p := false, b := false } }

/-- Row 21: CLV Implicit (R142). -/
def rowClv : Descriptor :=
  { opcode := 0xB8, mnemonic := .clv, length := 1, baseCycles := 2, mode := .implicit, penalty := { p := false, b := false } }

/-- Row 22: SEC Implicit (R143). -/
def rowSec : Descriptor :=
  { opcode := 0x38, mnemonic := .sec, length := 1, baseCycles := 2, mode := .implicit, penalty := { p := false, b := false } }

/-- Row 23: SED Implicit (R144). -/
def rowSed : Descriptor :=
  { opcode := 0xF8, mnemonic := .sed, length := 1, baseCycles := 2, mode := .implicit, penalty := { p := false, b := false } }

/-- Row 24: SEI Implicit (R145). -/
def rowSei : Descriptor :=
  { opcode := 0x78, mnemonic := .sei, length := 1, baseCycles := 2, mode := .implicit, penalty := { p := false, b := false } }

/-- 43_rom_implied.md, rows 0 to 24, in authoring order. -/
def defaultRowsImplied : List Descriptor :=
  [rowBrk, rowNop, rowTax, rowTay, rowTsx, rowTxa, rowTxs, rowTya,
   rowPha, rowPhp, rowPla, rowPlp, rowRti, rowRts, rowInx, rowIny,
   rowDex, rowDey, rowClc, rowCld, rowCli, rowClv, rowSec, rowSed,
   rowSei]

/-- Row 25: AND Immediate (R151). -/
def rowAndImm : Descriptor :=
  { opcode := 0x29, mnemonic := .and, length := 2, baseCycles := 2, mode := .immediate, penalty := { p := false, b := false } }

/-- Row 26: AND ZeroPage (R152). -/
def rowAndZp : Descriptor :=
  { opcode := 0x25, mnemonic := .and, length := 2, baseCycles := 3, mode := .zeroPage, penalty := { p := false, b := false } }

/-- Row 27: AND ZeroPageX (R153). -/
def rowAndZpX : Descriptor :=
  { opcode := 0x35, mnemonic := .and, length := 2, baseCycles := 4, mode := .zeroPageX, penalty := { p := false, b := false } }

/-- Row 28: AND Absolute (R154). -/
def rowAndAbs : Descriptor :=
  { opcode := 0x2D, mnemonic := .and, length := 3, baseCycles := 4, mode := .absolute, penalty := { p := false, b := false } }

/-- Row 29: AND AbsoluteX (R155). -/
def rowAndAbsX : Descriptor :=
  { opcode := 0x3D, mnemonic := .and, length := 3, baseCycles := 4, mode := .absoluteX, penalty := { p := true, b := false } }

/-- Row 30: AND AbsoluteY (R156). -/
def rowAndAbsY : Descriptor :=
  { opcode := 0x39, mnemonic := .and, length := 3, baseCycles := 4, mode := .absoluteY, penalty := { p := true, b := false } }

/-- Row 31: AND IndirectX (R157). -/
def rowAndIndX : Descriptor :=
  { opcode := 0x21, mnemonic := .and, length := 2, baseCycles := 6, mode := .indirectX, penalty := { p := false, b := false } }

/-- Row 32: AND IndirectY (R158). -/
def rowAndIndY : Descriptor :=
  { opcode := 0x31, mnemonic := .and, length := 2, baseCycles := 5, mode := .indirectY, penalty := { p := true, b := false } }

/-- Row 33: ORA Immediate (R159). -/
def rowOraImm : Descriptor :=
  { opcode := 0x09, mnemonic := .ora, length := 2, baseCycles := 2, mode := .immediate, penalty := { p := false, b := false } }

/-- Row 34: ORA ZeroPage (R160). -/
def rowOraZp : Descriptor :=
  { opcode := 0x05, mnemonic := .ora, length := 2, baseCycles := 3, mode := .zeroPage, penalty := { p := false, b := false } }

/-- Row 35: ORA ZeroPageX (R161). -/
def rowOraZpX : Descriptor :=
  { opcode := 0x15, mnemonic := .ora, length := 2, baseCycles := 4, mode := .zeroPageX, penalty := { p := false, b := false } }

/-- Row 36: ORA Absolute (R162). -/
def rowOraAbs : Descriptor :=
  { opcode := 0x0D, mnemonic := .ora, length := 3, baseCycles := 4, mode := .absolute, penalty := { p := false, b := false } }

/-- Row 37: ORA AbsoluteX (R163). -/
def rowOraAbsX : Descriptor :=
  { opcode := 0x1D, mnemonic := .ora, length := 3, baseCycles := 4, mode := .absoluteX, penalty := { p := true, b := false } }

/-- Row 38: ORA AbsoluteY (R164). -/
def rowOraAbsY : Descriptor :=
  { opcode := 0x19, mnemonic := .ora, length := 3, baseCycles := 4, mode := .absoluteY, penalty := { p := true, b := false } }

/-- Row 39: ORA IndirectX (R165). -/
def rowOraIndX : Descriptor :=
  { opcode := 0x01, mnemonic := .ora, length := 2, baseCycles := 6, mode := .indirectX, penalty := { p := false, b := false } }

/-- Row 40: ORA IndirectY (R166). -/
def rowOraIndY : Descriptor :=
  { opcode := 0x11, mnemonic := .ora, length := 2, baseCycles := 5, mode := .indirectY, penalty := { p := true, b := false } }

/-- Row 41: LSR Accumulator (R167). -/
def rowLsrAcc : Descriptor :=
  { opcode := 0x4A, mnemonic := .lsr, length := 1, baseCycles := 2, mode := .accumulator, penalty := { p := false, b := false } }

/-- Row 42: LSR ZeroPage (R168). -/
def rowLsrZp : Descriptor :=
  { opcode := 0x46, mnemonic := .lsr, length := 2, baseCycles := 5, mode := .zeroPage, penalty := { p := false, b := false } }

/-- Row 43: LSR ZeroPageX (R169). -/
def rowLsrZpX : Descriptor :=
  { opcode := 0x56, mnemonic := .lsr, length := 2, baseCycles := 6, mode := .zeroPageX, penalty := { p := false, b := false } }

/-- Row 44: LSR Absolute (R170). -/
def rowLsrAbs : Descriptor :=
  { opcode := 0x4E, mnemonic := .lsr, length := 3, baseCycles := 6, mode := .absolute, penalty := { p := false, b := false } }

/-- Row 45: LSR AbsoluteX (R171). -/
def rowLsrAbsX : Descriptor :=
  { opcode := 0x5E, mnemonic := .lsr, length := 3, baseCycles := 7, mode := .absoluteX, penalty := { p := false, b := false } }

/-- Row 46: ASL Accumulator (R172). -/
def rowAslAcc : Descriptor :=
  { opcode := 0x0A, mnemonic := .asl, length := 1, baseCycles := 2, mode := .accumulator, penalty := { p := false, b := false } }

/-- Row 47: ASL ZeroPage (R173). -/
def rowAslZp : Descriptor :=
  { opcode := 0x06, mnemonic := .asl, length := 2, baseCycles := 5, mode := .zeroPage, penalty := { p := false, b := false } }

/-- Row 48: ASL ZeroPageX (R174). -/
def rowAslZpX : Descriptor :=
  { opcode := 0x16, mnemonic := .asl, length := 2, baseCycles := 6, mode := .zeroPageX, penalty := { p := false, b := false } }

/-- Row 49: ASL Absolute (R175). -/
def rowAslAbs : Descriptor :=
  { opcode := 0x0E, mnemonic := .asl, length := 3, baseCycles := 6, mode := .absolute, penalty := { p := false, b := false } }

/-- Row 50: ASL AbsoluteX (R176). -/
def rowAslAbsX : Descriptor :=
  { opcode := 0x1E, mnemonic := .asl, length := 3, baseCycles := 7, mode := .absoluteX, penalty := { p := false, b := false } }

/-- 44_rom_logic_shift.md, rows 25 to 50, in authoring order. -/
def defaultRowsLogicShift : List Descriptor :=
  [rowAndImm, rowAndZp, rowAndZpX, rowAndAbs, rowAndAbsX, rowAndAbsY, rowAndIndX, rowAndIndY,
   rowOraImm, rowOraZp, rowOraZpX, rowOraAbs, rowOraAbsX, rowOraAbsY, rowOraIndX, rowOraIndY,
   rowLsrAcc, rowLsrZp, rowLsrZpX, rowLsrAbs, rowLsrAbsX, rowAslAcc, rowAslZp, rowAslZpX,
   rowAslAbs, rowAslAbsX]

/-- Row 51: BCC Relative (R191). -/
def rowBcc : Descriptor :=
  { opcode := 0x90, mnemonic := .bcc, length := 2, baseCycles := 2, mode := .relative, penalty := { p := false, b := true } }

/-- Row 52: BCS Relative (R192). -/
def rowBcs : Descriptor :=
  { opcode := 0xB0, mnemonic := .bcs, length := 2, baseCycles := 2, mode := .relative, penalty := { p := false, b := true } }

/-- Row 53: BEQ Relative (R193). -/
def rowBeq : Descriptor :=
  { opcode := 0xF0, mnemonic := .beq, length := 2, baseCycles := 2, mode := .relative, penalty := { p := false, b := true } }

/-- 45_rom_branch.md, rows 51 to 53, in authoring order. -/
def defaultRowsBranch : List Descriptor :=
  [rowBcc, rowBcs, rowBeq]

/-- Row 54: LDA Immediate (R201). -/
def rowLdaImm : Descriptor :=
  { opcode := 0xA9, mnemonic := .lda, length := 2, baseCycles := 2, mode := .immediate, penalty := { p := false, b := false } }

/-- Row 55: LDA ZeroPage (R202). -/
def rowLdaZp : Descriptor :=
  { opcode := 0xA5, mnemonic := .lda, length := 2, baseCycles := 3, mode := .zeroPage, penalty := { p := false, b := false } }

/-- Row 56: LDA ZeroPageX (R203). -/
def rowLdaZpX : Descriptor :=
  { opcode := 0xB5, mnemonic := .lda, length := 2, baseCycles := 4, mode := .zeroPageX, penalty := { p := false, b := false } }

/-- Row 57: LDA Absolute (R204). -/
def rowLdaAbs : Descriptor :=
  { opcode := 0xAD, mnemonic := .lda, length := 3, baseCycles := 4, mode := .absolute, penalty := { p := false, b := false } }

/-- Row 58: LDA AbsoluteX (R205). -/
def rowLdaAbsX : Descriptor :=
  { opcode := 0xBD, mnemonic := .lda, length := 3, baseCycles := 4, mode := .absoluteX, penalty := { p := true, b := false } }

/-- Row 59: LDA AbsoluteY (R206). -/
def rowLdaAbsY : Descriptor :=
  { opcode := 0xB9, mnemonic := .lda, length := 3, baseCycles := 4, mode := .absoluteY, penalty := { p := true, b := false } }

/-- Row 60: LDA IndirectX (R207). -/
def rowLdaIndX : Descriptor :=
  { opcode := 0xA1, mnemonic := .lda, length := 2, baseCycles := 6, mode := .indirectX, penalty := { p := false, b := false } }

/-- Row 61: LDA IndirectY (R208). -/
def rowLdaIndY : Descriptor :=
  { opcode := 0xB1, mnemonic := .lda, length := 2, baseCycles := 5, mode := .indirectY, penalty := { p := true, b := false } }

/-- Row 62: STA ZeroPage (R209). -/
def rowStaZp : Descriptor :=
  { opcode := 0x85, mnemonic := .sta, length := 2, baseCycles := 3, mode := .zeroPage, penalty := { p := false, b := false } }

/-- Row 63: STA ZeroPageX (R210). -/
def rowStaZpX : Descriptor :=
  { opcode := 0x95, mnemonic := .sta, length := 2, baseCycles := 4, mode := .zeroPageX, penalty := { p := false, b := false } }

/-- Row 64: STA Absolute (R211). -/
def rowStaAbs : Descriptor :=
  { opcode := 0x8D, mnemonic := .sta, length := 3, baseCycles := 4, mode := .absolute, penalty := { p := false, b := false } }

/-- Row 65: STA AbsoluteX (R212). -/
def rowStaAbsX : Descriptor :=
  { opcode := 0x9D, mnemonic := .sta, length := 3, baseCycles := 5, mode := .absoluteX, penalty := { p := false, b := false } }

/-- Row 66: STA AbsoluteY (R213). -/
def rowStaAbsY : Descriptor :=
  { opcode := 0x99, mnemonic := .sta, length := 3, baseCycles := 5, mode := .absoluteY, penalty := { p := false, b := false } }

/-- Row 67: STA IndirectX (R214). -/
def rowStaIndX : Descriptor :=
  { opcode := 0x81, mnemonic := .sta, length := 2, baseCycles := 6, mode := .indirectX, penalty := { p := false, b := false } }

/-- Row 68: STA IndirectY (R215). -/
def rowStaIndY : Descriptor :=
  { opcode := 0x91, mnemonic := .sta, length := 2, baseCycles := 6, mode := .indirectY, penalty := { p := false, b := false } }

/-- 46_rom_load_store.md, rows 54 to 68, in authoring order. -/
def defaultRowsLoadStore : List Descriptor :=
  [rowLdaImm, rowLdaZp, rowLdaZpX, rowLdaAbs, rowLdaAbsX, rowLdaAbsY, rowLdaIndX, rowLdaIndY,
   rowStaZp, rowStaZpX, rowStaAbs, rowStaAbsX, rowStaAbsY, rowStaIndX, rowStaIndY]

/-- The default of `SPEC` (00_scope.md R8, 10_state.md R26): the 69 rows in the order of 30_encoding.md R71. -/
def defaultSpec : List Descriptor :=
  defaultRowsImplied ++ defaultRowsLogicShift ++ defaultRowsBranch ++ defaultRowsLoadStore

end Sys2Proof.Machine
end

