-- ==== Sys2Proof/Machine/State.lean ====
section
/-! DEFINITION. The state of the machine, as plain data, and the state after reset. The block's own state is `spec` and
`phase` (10_state.md R20: `SPEC`, `IDX`, `INIT`, `FAILINFO`); `policy` is its parameter; the rest belongs to the agents
around it (00_scope.md R6), held here so that the step is a function of the state: the reader ports with the requests
their Readers want to make, the consumer's own values, its instruction stream, and the schedule of turns.
DESIGN CHOICE (log 1). -/

namespace Sys2Proof.Machine

/-- `InitState` (00_scope.md R10), the four values of `INIT` (10_state.md R24). -/
inductive InitState where
  | uninit
  | building
  | ready
  | failed
  deriving DecidableEq, Repr

/-- `FailReason` (00_scope.md R10), the two causes of `SpecInconsistency` (60_exceptions.md R241). -/
inductive FailReason where
  | lengthModeMismatch
  | duplicateOpcode
  deriving DecidableEq, Repr

/-- `FAILINFO` (10_state.md R25): the cause, the offending row's index and its opcode. `row` is a natural number, since a
`SPEC` of more than 256 rows fails at a row that 8 bits may not hold (90_conflicts.md C11). -/
structure FailInfo where
  reason : FailReason
  row    : Nat
  opcode : Byte
  deriving DecidableEq, Repr

/-- `IDX` (10_state.md R20, R27): 256 entries, the entry of byte `b` at place `b`. -/
abbrev Index := List (Option Nat)

/-- `INIT` together with the register that has a value in that state. `IDX` exists only in `Ready` and `FAILINFO` only in
`Failed`, as 10_state.md R29 allows ("a field that exists only in the `Ready` constructor"): elsewhere they hold no value
and no operation reads them (R24, R25, R27, 93_implementation_defined.md U17). -/
inductive Phase where
  | uninit
  | building
  | ready (idx : Index)
  | failed (info : FailInfo)
  deriving DecidableEq, Repr

/-- `LookupResult` (00_scope.md R10). -/
inductive LookupResult where
  | absent
  | present (d : Descriptor)
  deriving DecidableEq, Repr

/-- `Response` (30_encoding.md R69). -/
inductive Response where
  | none
  | hit (d : Descriptor)
  | miss
  | row (d : Descriptor)
  | noRow
  | count (n : Nat)
  | status (init : InitState) (info : Option FailInfo)
  deriving DecidableEq, Repr

/-- What the external engine supplies with one turn of its own (47_penalty_rules.md R220 to R225): the address before
and after indexing, the address control goes to if the instruction transfers it (`none`: it does not, and a branch is
not taken), and where it goes on if the answer is `Miss`, which is its `UNDEF_POLICY` (41_lookup.md R102; `none`: it stays).
These are values of the engine, inputs of the turn. DEDUCED (logs 8 and 16). -/
structure EngineIn where
  baseAddr : Addr
  effAddr  : Addr
  transfer : Option Addr
  onMiss   : Option Addr
  deriving DecidableEq, Repr

/-- One Reader and its port (00_scope.md R6): the request words it still wants to present, the code it holds out without
an answer (41_lookup.md R103, R104), the last answer it got, and, when it is the fetch-decode-execute engine, the
address of its next opcode byte, the cycles it has charged (47_penalty_rules.md R221, R226) and the values it supplied
last. The block stores none of this (10_state.md R21, R22): it is the client's. DEDUCED (log 18): the engine is a Reader. -/
structure Reader where
  todo   : List ReqWord
  held   : Option Code
  resp   : Option Response
  pc     : Addr
  cycles : Nat
  engine : EngineIn
  deriving DecidableEq, Repr

/-- One entry of the schedule (10_state.md R31: "the schedule in which Readers and the Builder take their steps"). -/
inductive Turn where
  /-- The Builder takes its step, if it has one (40_construct.md R90). -/
  | builder
  /-- Reader `port` takes its step: it is offered its held request again, or presents its next one. -/
  | reader (port : Nat)
  /-- The engine on reader port `port` takes its step: it looks up the opcode byte at its `pc`. -/
  | engine (port : Nat) (e : EngineIn)
  /-- A reset of the block (70_reset_and_hazards.md R270). -/
  | reset
  deriving DecidableEq, Repr

/-- The state. -/
structure State where
  spec     : List Descriptor
  phase    : Phase
  policy   : InitPolicy
  readers  : List Reader
  active   : Nat
  stream   : Mem
  schedule : List Turn
  deriving DecidableEq, Repr

/-- Where a run stops. The block itself stops nowhere (60_exceptions.md R240: an inconsistent `SPEC` is the state
`Failed`, an absent opcode the answer `Miss`); both reasons are about the surroundings. -/
inductive Fault where
  /-- Raised by every meaning and by a turn when the acting port is not one of the `READERS` ports. Safe: the
  spec has no such port (00_scope.md R8). -/
  | noSuchPort
  /-- Raised by an engine's turn when its stream has no byte at its `pc`. Safe: the engine then hands nothing over. -/
  | noStreamByte
  deriving DecidableEq, Repr

/-- Why a step has no meaning. -/
inductive Refusal where
  /-- Raised by an arm of `exec` whose instruction has no meaning yet. Safe: nothing runs. No arm does. -/
  | notModelled (mnemonic : String)
  deriving DecidableEq, Repr

/-- Engine values of a turn in which nothing crosses a page, nothing transfers control and a `Miss` moves nothing. -/
def EngineIn.quiet : EngineIn := { baseAddr := 0, effAddr := 0, transfer := .none, onMiss := .none }

/-- A Reader that has asked nothing yet. -/
def Reader.fresh : Reader := { todo := [], held := .none, resp := .none, pc := 0, cycles := 0, engine := EngineIn.quiet }

/-- The machine right after reset (10_state.md R29): `SPEC` its authored contents, `INIT` = `Uninit`, `IDX` and
`FAILINFO` without value. The parameters have their defaults (00_scope.md R8). DESIGN CHOICE (log 3): the Readers' own
values, which are none of the block's. -/
def State.reset : State :=
  { spec := defaultSpec
    phase := .uninit
    policy := Config.defaultPolicy
    readers := List.replicate Config.defaultReaders Reader.fresh
    active := 0
    stream := []
    schedule := [] }

end Sys2Proof.Machine
end

