-- ==== Sys2Proof/Machine/Ops.lean ====
section
/-! DEFINITION. The shared operations: construction (validation, index derivation, the Builder's two steps, the failure
entry), the two read primitives, and how a port is answered or held. Every meaning is written over these. -/

namespace Sys2Proof.Machine

/-- What one step, and one meaning, answers. -/
abbrev Result := Host.Outcome State Fault Refusal

/-! ### Construction (40_construct.md) -/

/-- The result of `validate` (40_construct.md R90). -/
inductive Validation where
  | ok
  | error (info : FailInfo)
  deriving DecidableEq, Repr

/-- The loop of `validate` (40_construct.md R90) from row `i` on, `seen` holding the opcodes of the rows before it. The
length check comes before the duplicate check (60_exceptions.md R245). -/
def validateFrom (i : Nat) (seen : List Byte) : List Descriptor → Validation
  | [] => .ok
  | d :: ds =>
    if d.length ≠ expectedLength d.mode then
      .error { reason := .lengthModeMismatch, row := i, opcode := d.opcode }
    else if d.opcode ∈ seen then
      .error { reason := .duplicateOpcode, row := i, opcode := d.opcode }
    else validateFrom (i + 1) (d.opcode :: seen) ds

/-- `validate(SPEC)` (40_construct.md R90 to R92). -/
def validate (spec : List Descriptor) : Validation := validateFrom 0 [] spec

/-- The loop of `deriveIndex` (40_construct.md R90, R93): `idx[SPEC[i].opcode] <- Some i`, row by row. -/
def fillIndex (i : Nat) (idx : Index) : List Descriptor → Index
  | [] => idx
  | d :: ds => fillIndex (i + 1) (idx.set d.opcode.toNat (some i)) ds

/-- `deriveIndex(SPEC)` (40_construct.md R90, R93): all `None`, then one entry for each row. -/
def deriveIndex (spec : List Descriptor) : Index := fillIndex 0 (List.replicate 256 none) spec

/-- `INIT` is `Ready` or `Failed`: BUILD has ended. -/
def Phase.settled : Phase → Bool
  | .ready _ => true
  | .failed _ => true
  | .uninit => false
  | .building => false

/-- A trigger of BUILD is present (40_construct.md R97): reset release itself under `Eager`; under `Lazy` a request that
found no table yet, which its Reader then holds out (41_lookup.md R103). DEDUCED (log 13). -/
def State.triggered (s : State) : Bool :=
  s.policy == .eager || s.readers.any (fun r => r.held.isSome)

/-- `raise SpecInconsistency(info)` (60_exceptions.md R246), in one step: `FAILINFO <- info ; INIT <- Failed`, "and
nothing else". This is the block's one exception entry: there is no handler, no vector and no mode change, and no
return (R247); only `reboot` leaves `Failed`. -/
def raiseSpecInconsistency (info : FailInfo) (s : State) : State := { s with phase := .failed info }

/-- `step build_start` (40_construct.md R90). -/
def buildStart (s : State) : State := { s with phase := .building }

/-- `step build_finish` (40_construct.md R90): all or nothing (R94). -/
def buildFinish (s : State) : State :=
  match validate s.spec with
  | .ok => { s with phase := .ready (deriveIndex s.spec) }
  | .error info => raiseSpecInconsistency info s

/-- The Builder's step (40_construct.md R90): `build_start` where `INIT = Uninit` and a trigger is present, `build_finish`
where `INIT = Building`; otherwise it has none, and its turn changes nothing (R95). -/
def builderStep (s : State) : State :=
  match s.phase with
  | .uninit => if s.triggered then buildStart s else s
  | .building => buildFinish s
  | .ready _ => s
  | .failed _ => s

/-- Reset (70_reset_and_hazards.md R270): `INIT` to `Uninit`, and nothing else of the block; "a reset in the middle of
BUILD or of a held request abandons them". -/
def reboot (s : State) : State :=
  { s with phase := .uninit, readers := s.readers.map (fun r => { r with held := none }) }

/-! ### The two read primitives (20_memory.md R40) -/

/-- `RomRead(b)` over a table and its index (20_memory.md R40): the row that `IDX[b]` names, gated by its presence
(30_encoding.md R67). -/
def romRead (spec : List Descriptor) (idx : Index) (b : Byte) : LookupResult :=
  match idx.getD b.toNat none with
  | none => .absent
  | some i =>
    match spec[i]? with
    | some d => .present d
    | none => .absent

/-- `RowRead(i)` (20_memory.md R40): `SPEC[i]` where `i < N`. -/
def rowRead (spec : List Descriptor) (i : Nat) : Option Descriptor := spec[i]?

/-- The sequence face (42_enumerate.md R110): what ALL returns, where `INIT = Ready`. -/
def allRows (s : State) : Option (List Descriptor) :=
  match s.phase with
  | .ready _ => some s.spec
  | .uninit => none
  | .building => none
  | .failed _ => none

/-- The expansion of the pseudo-operation ALL (30_encoding.md R68, 42_enumerate.md R110): COUNT, then ROWREAD 0 to
ROWREAD `n - 1`. -/
def allRequests (n : Nat) : List ReqWord :=
  requestWord 0b100 0 :: (List.range n).map (fun i => requestWord 0b010 (BitVec.ofNat 8 i))

/-! ### The acting port -/

/-- Change the record of the Reader whose turn it is, and nothing else. -/
def onActive (f : Reader → Reader) (s : State) : Result :=
  match s.readers[s.active]? with
  | none => .fault .noSuchPort
  | some r => .next { s with readers := s.readers.set s.active (f r) }

/-- Answer the acting Reader: it holds nothing out any more, and has its response. -/
def answer (resp : Response) (s : State) : Result :=
  onActive (fun r => { r with held := none, resp := some resp }) s

/-- `hold` (00_scope.md R11, 41_lookup.md R103): no response yet; the Reader holds its request out and is offered the same
step again. In `Failed` the same state of the port is `stuck` (R104): no later step answers it.
DESIGN CHOICE (log 14): either is a next state, and the port shows no response. -/
def hold (c : Code) (s : State) : Result :=
  onActive (fun r => { r with held := some c, resp := none }) s

/-- A read operation answers only in `Ready` (41_lookup.md R103, R104; 42_enumerate.md R110): elsewhere its request is
held out. -/
def readOperation (c : Code) (read : Index → Response) (s : State) : Result :=
  match s.phase with
  | .ready idx => answer (read idx) s
  | .uninit => hold c s
  | .building => hold c s
  | .failed _ => hold c s

/-- The request a port holds out that gets an answer in this phase if it is offered again: every one in `Ready`; in
`Failed` a BUILD request, which "holds until BUILD ends and then gets the `Status` response" (40_construct.md R95), while
the read requests are stuck (41_lookup.md R104). -/
def answerable (p : Phase) (c : Code) : Bool :=
  match p with
  | .uninit => false
  | .building => false
  | .ready _ => true
  | .failed _ =>
    match decode c with
    | .ok (.build _) => true
    | _ => false

/-- A Reader is stuck (00_scope.md R11, 41_lookup.md R104): it holds a request out that is never answered. -/
def Reader.stuck (p : Phase) (r : Reader) : Bool :=
  match p, r.held with
  | .failed _, some c => !answerable p c
  | _, _ => false

end Sys2Proof.Machine
end

