-- ==== Sys2Proof/Machine/Operands.lean ====
section
/-! DEFINITION. Operand bytes and operand forms. The block assembles no operand (30_encoding.md R70): it supplies their
count and the mode tag. `resolve` and `branchTarget` are the engine's reading of each mode, which the spec gives for
orientation (47_penalty_rules.md R227, R228); no step of the machine uses them. PRESUMED (log 6): both are general
knowledge in the spec. -/

namespace Sys2Proof.Machine

/-- The three formats of the instruction stream (30_encoding.md R60). -/
inductive Format where
  | f1
  | f2
  | f3
  deriving DecidableEq, Repr

/-- The format a mode uses (30_encoding.md R60). -/
def formatOf (m : Mode) : Format :=
  match operandBytes m with
  | 0 => .f1
  | 1 => .f2
  | _ => .f3

/-- The bytes of an instruction in each format (30_encoding.md R60). -/
def Format.length : Format → Nat
  | .f1 => 1
  | .f2 => 2
  | .f3 => 3

/-- How many operand bytes a descriptor announces: `length - 1` (30_encoding.md R70). -/
def operandCount (d : Descriptor) : Nat := d.length - 1

/-- The addresses of the instruction's bytes (47_penalty_rules.md R221): `pc` to `pc + d.length - 1`. -/
def instructionAddrs (pc : Addr) (d : Descriptor) : List Addr :=
  (List.range d.length).map (fun k => pc + BitVec.ofNat 16 k)

/-- The addresses of its operand bytes, "the `d.length - 1` bytes after the opcode" (47_penalty_rules.md R221). -/
def operandAddrs (pc : Addr) (d : Descriptor) : List Addr :=
  (List.range (operandCount d)).map (fun k => pc + BitVec.ofNat 16 (k + 1))

/-- `next_pc = pc + d.length` (47_penalty_rules.md R221): the block fixes the addend. PRESUMED (log 6): the wrap. -/
def nextPc (pc : Addr) (d : Descriptor) : Addr := pc + BitVec.ofNat 16 d.length

/-- Where the engine's next opcode byte stands (47_penalty_rules.md R221): after this instruction, "unless the instruction
itself transfers control". -/
def pcAfter (pc : Addr) (d : Descriptor) (e : EngineIn) : Addr :=
  match e.transfer with
  | none => nextPc pc d
  | some t => t

/-- What an operand form stands for (47_penalty_rules.md R228). An address carries the address before indexing too, which
is what a page crossing is told by (R224). -/
inductive Operand where
  | none
  | accumulator
  | value (b : Byte)
  | address (base eff : Addr)
  | target (t : Addr)
  deriving DecidableEq, Repr

/-- The 16-bit number of two operand bytes, the first the low half (20_memory.md R41, general knowledge). -/
def word16 (lo hi : Byte) : Addr := hi ++ lo

/-- A zero-page address (47_penalty_rules.md R228). -/
def zeroPageAddr (b : Byte) : Addr := b.zeroExtend 16

/-- The 16-bit pointer at zero-page address `b`, its second byte at `(b + 1) mod 256` (47_penalty_rules.md R228). -/
def zeroPagePointer (m : Mem) (b : Byte) : Option Addr :=
  match Mem.read m (zeroPageAddr b), Mem.read m (zeroPageAddr (b + 1)) with
  | some lo, some hi => some (word16 lo hi)
  | _, _ => none

/-- The branch target (47_penalty_rules.md R227): `(pc + 2 + sext_16(displacement)) mod 65536`. -/
def branchTarget (pc : Addr) (displacement : Byte) : Addr := pc + 2 + displacement.signExtend 16

/-- The value or effective address of each mode (47_penalty_rules.md R228). `x` and `y` are the CPU's index registers and
`m` its memory; none where a pointer's bytes are not in it. -/
def resolve (m : Mem) (pc : Addr) (mode : Mode) (op1 op2 x y : Byte) : Option Operand :=
  match mode with
  | .implicit => some .none
  | .accumulator => some .accumulator
  | .immediate => some (.value op1)
  | .zeroPage => some (.address (zeroPageAddr op1) (zeroPageAddr op1))
  | .zeroPageX => some (.address (zeroPageAddr op1) (zeroPageAddr (op1 + x)))
  | .zeroPageY => some (.address (zeroPageAddr op1) (zeroPageAddr (op1 + y)))
  | .absolute => some (.address (word16 op1 op2) (word16 op1 op2))
  | .absoluteX => some (.address (word16 op1 op2) (word16 op1 op2 + x.zeroExtend 16))
  | .absoluteY => some (.address (word16 op1 op2) (word16 op1 op2 + y.zeroExtend 16))
  | .indirectX => (zeroPagePointer m (op1 + x)).map (fun a => .address a a)
  | .indirectY => (zeroPagePointer m op1).map (fun a => .address a (a + y.zeroExtend 16))
  | .relative => some (.target (branchTarget pc op1))

/-- The engine values of an operand form; `taken` is the outcome of a branch's condition, which the engine evaluates
(47_penalty_rules.md R225). -/
def Operand.engineIn (taken : Bool) : Operand → EngineIn
  | .address base eff => { EngineIn.quiet with baseAddr := base, effAddr := eff }
  | .target t => { EngineIn.quiet with transfer := if taken then some t else .none }
  | .none => EngineIn.quiet
  | .accumulator => EngineIn.quiet
  | .value _ => EngineIn.quiet

end Sys2Proof.Machine
end

