-- ==== Sys2Proof/Machine/Flags.lean ====
section
/-! DEFINITION. The block has no status flags (10_state.md R23). Here are the three things that look like flags: the views
of `INIT`, the output `hit`, and the markers `P` and `B` with the cycles the engine charges for them
(47_penalty_rules.md R223 to R226); and the encodings of the two status registers. -/

namespace Sys2Proof.Machine

/-- `INIT` (10_state.md R24). -/
def Phase.initState : Phase → InitState
  | .uninit => .uninit
  | .building => .building
  | .ready _ => .ready
  | .failed _ => .failed

/-- `IDX` (10_state.md R20, R27), which holds a value in `Ready` only. -/
def Phase.idx : Phase → Option Index
  | .ready idx => some idx
  | .uninit => none
  | .building => none
  | .failed _ => none

/-- `FAILINFO` (10_state.md R25), which holds a value in `Failed` only. -/
def Phase.failInfo : Phase → Option FailInfo
  | .failed info => some info
  | .uninit => none
  | .building => none
  | .ready _ => none

/-- The view `ready = (INIT = Ready)` (10_state.md R23). -/
def State.isReady (s : State) : Bool := s.phase.initState == .ready

/-- The view `failed = (INIT = Failed)` (10_state.md R23). -/
def State.isFailed (s : State) : Bool := s.phase.initState == .failed

/-- `INIT[1:0]` (10_state.md R24). -/
def InitState.code : InitState → BitVec 2
  | .uninit => 0b00
  | .building => 0b01
  | .ready => 0b10
  | .failed => 0b11

/-- `FAILINFO.reason` (10_state.md R25, 60_exceptions.md R241). -/
def FailReason.code : FailReason → BitVec 2
  | .lengthModeMismatch => 0b01
  | .duplicateOpcode => 0b10

/-- `page(a) = a div 256` (47_penalty_rules.md R224, 00_scope.md R13). -/
def page (a : Addr) : Nat := a.toNat / 256

/-- `crossed` (47_penalty_rules.md R224). -/
def crossed (e : EngineIn) : Bool := page e.effAddr != page e.baseAddr

/-- `penalty_P` (47_penalty_rules.md R224). -/
def penaltyP (d : Descriptor) (e : EngineIn) : Nat := if d.penalty.p && crossed e then 1 else 0

/-- The address a branch's page is compared with: the next instruction's, `pc + 2` (47_penalty_rules.md R225, D19). -/
def refAddr (pc : Addr) : Addr := pc + 2

/-- `penalty_B` (47_penalty_rules.md R225): a branch is taken when the turn's instruction transfers control.
DEDUCED (log 16). -/
def penaltyB (d : Descriptor) (pc : Addr) (e : EngineIn) : Nat :=
  if !d.penalty.b then 0
  else
    match e.transfer with
    | none => 0
    | some target => if page target = page (refAddr pc) then 1 else 2

/-- The total charge of one execution (47_penalty_rules.md R226). -/
def cyclesCharged (d : Descriptor) (pc : Addr) (e : EngineIn) : Nat :=
  d.baseCycles + penaltyP d e + penaltyB d pc e

end Sys2Proof.Machine
end

