-- ==== Sys2Proof/Machine/Ports.lean ====
section
/-! DEFINITION. The bit form of a response (30_encoding.md R69). A bit the spec gives no value is given none here
(30_encoding.md R69, 92_eei_decisions.md D13): nothing can read it. -/

namespace Sys2Proof.Machine

/-- `resp_kind[2:0]` (30_encoding.md R69); the value 7 is unused. -/
def Response.kind : Response → BitVec 3
  | .none => 0
  | .hit _ => 1
  | .miss => 2
  | .row _ => 3
  | .noRow => 4
  | .count _ => 5
  | .status _ _ => 6

/-- The output signal `hit` is `resp_kind = 1` (30_encoding.md R69, 10_state.md R23). -/
def Response.hitSignal (r : Response) : Bool := r.kind == 1

/-- The descriptor a response carries: only `Hit` and `Row` do (41_lookup.md R102). -/
def Response.descriptor : Response → Option Descriptor
  | .hit d => some d
  | .row d => some d
  | .none => .none
  | .miss => .none
  | .noRow => .none
  | .count _ => .none
  | .status _ _ => .none

/-- The fields of a Status response's `resp_data` (30_encoding.md R69), least significant first: `INIT` in `[1:0]`, and the
report's reason in `[3:2]`, row in `[11:4]` and opcode in `[19:12]`. A field the spec gives no value has none. -/
structure StatusBits where
  init   : BitVec 2
  reason : Option (BitVec 2)
  row    : Option (BitVec 8)
  opcode : Option Byte
  deriving DecidableEq, Repr

/-- `zext_8(row)` (30_encoding.md R69), "defined only for `row <= 255`" (90_conflicts.md C11). -/
def rowField (row : Nat) : Option (BitVec 8) := if row ≤ 255 then some (BitVec.ofNat 8 row) else none

/-- The report a Status response shows: none unless `INIT = Failed` (30_encoding.md R69, 10_state.md R25). -/
def reportShown (init : InitState) (info : Option FailInfo) : Option FailInfo := if init = .failed then info else none

/-- The fields of a Status response, each by itself: a row that 8 bits do not hold leaves the other fields as they are. -/
def Response.statusBits : Response → Option StatusBits
  | .status init info => some
    { init := init.code
      reason := (reportShown init info).map (·.reason.code)
      row := (reportShown init info).bind (fun i => rowField i.row)
      opcode := (reportShown init info).map (·.opcode) }
  | .none => .none
  | .hit _ => .none
  | .miss => .none
  | .row _ => .none
  | .noRow => .none
  | .count _ => .none

/-- The whole word, where every field has a value.
DEDUCED (log 9): the bits above the report are zero, as 95_test_vectors.md T-4 prints the whole word. -/
def StatusBits.word (b : StatusBits) : Option RomWord :=
  match b.reason, b.row, b.opcode with
  | some reason, some row, some opcode => some ((0 : BitVec 6) ++ opcode ++ row ++ reason ++ b.init)
  | _, _, _ => none

/-- `resp_data[25:0]` where the spec gives all of it (30_encoding.md R69): `pack(d)`, `zext_26(N)` for `N` up to 256, and the
failure report of a row up to 255 (90_conflicts.md C11). -/
def Response.data : Response → Option RomWord
  | .hit d => pack d
  | .row d => pack d
  | .count n => if n ≤ 256 then some (BitVec.ofNat 26 n) else .none
  | .status init info => (Response.status init info).statusBits.bind StatusBits.word
  | .none => .none
  | .miss => .none
  | .noRow => .none

/-- `resp_data[1:0]` of a `Status` response is `INIT` (30_encoding.md R69). -/
def Response.initBits (r : Response) : Option (BitVec 2) := r.statusBits.map (·.init)

end Sys2Proof.Machine
end

