-- ==== Sys2Proof/Machine/Commands.lean ====
section
/-! DEFINITION. The meanings of the seven command rows (40_construct.md, 41_lookup.md, 42_enumerate.md). -/

namespace Sys2Proof.Machine

/-- `STATUS()` (40_construct.md R98). -/
def statusResponse (p : Phase) : Response :=
  match p with
  | .failed info => .status .failed (some info)
  | .uninit => .status .uninit none
  | .building => .status .building none
  | .ready _ => .status .ready none

/-- `LOOKUP(b)` over a table and its index (41_lookup.md R100, R102). -/
def lookupResponse (spec : List Descriptor) (idx : Index) (b : Byte) : Response :=
  match romRead spec idx b with
  | .present d => .hit d
  | .absent => .miss

/-- `ROWREAD(i)` over a table (42_enumerate.md R111). -/
def rowReadResponse (spec : List Descriptor) (i : Byte) : Response :=
  match rowRead spec i.toNat with
  | some d => .row d
  | none => .noRow

/-- IDLE (40_construct.md R99): answered `None` in every state. -/
def execIdle (_x : Byte) (s : State) : Result := answer .none s

/-- LOOKUP (41_lookup.md R100 to R104). -/
def execLookup (b : Byte) (s : State) : Result :=
  readOperation (encode (.lookup b)) (fun idx => lookupResponse s.spec idx b) s

/-- ROWREAD (42_enumerate.md R111). -/
def execRowRead (i : Byte) (s : State) : Result :=
  readOperation (encode (.rowRead i)) (fun _ => rowReadResponse s.spec i) s

/-- BUILD (40_construct.md R90, R95): the Status response once `INIT` is `Ready` or `Failed`; until then the request is
held out, which is the trigger of `build_start` (R97). -/
def execBuild (x : Byte) (s : State) : Result :=
  match s.phase with
  | .ready _ => answer (statusResponse s.phase) s
  | .failed _ => answer (statusResponse s.phase) s
  | .uninit => hold (encode (.build x)) s
  | .building => hold (encode (.build x)) s

/-- COUNT (42_enumerate.md R113). -/
def execCount (x : Byte) (s : State) : Result :=
  readOperation (encode (.count x)) (fun _ => .count s.spec.length) s

/-- STATUS (40_construct.md R98): answered in every state; it never holds and is no trigger. -/
def execStatus (_x : Byte) (s : State) : Result := answer (statusResponse s.phase) s

/-- A reserved command (30_encoding.md R68, R73): answered as IDLE. -/
def execReserved (_code : BitVec 3) (_x : Byte) (s : State) : Result := answer .none s

end Sys2Proof.Machine
end

