-- ==== Sys2Proof/Machine/Consumer.lean ====
section
/-! DEFINITION. What the ROM-row meanings share: the engine presents an opcode byte and interprets the answer. -/

namespace Sys2Proof.Machine

/-- The engine's Reader after a `Hit(d)`: it consumes `d.length` bytes and charges the cycles the row prescribes
(47_penalty_rules.md R221, R226, 70_reset_and_hazards.md R275 item 3). -/
def Reader.consume (d : Descriptor) (r : Reader) : Reader :=
  { r with
    held := none
    resp := some (.hit d)
    pc := pcAfter r.pc d r.engine
    cycles := r.cycles + cyclesCharged d r.pc r.engine }

/-- The engine's Reader after a `Miss`: nothing is charged, and it goes on where its own policy says (30_encoding.md R74,
41_lookup.md R102, decision D16; log 8). -/
def Reader.missed (r : Reader) : Reader :=
  { r with
    held := none
    resp := some .miss
    pc := match r.engine.onMiss with
      | none => r.pc
      | some a => a }

/-- The opcode byte `b` is handed over at the engine's port. It is looked up as by LOOKUP (41_lookup.md R100): held out
before the table is ready (R103), stuck after a failed BUILD (R104). On `Hit` the engine goes by the descriptor. On `Miss`
there is no length and no next address (30_encoding.md R74): the block's part ends with the answer. -/
def presentOpcode (b : Byte) (s : State) : Result :=
  match s.phase with
  | .ready idx =>
    match romRead s.spec idx b with
    | .present d => onActive (Reader.consume d) s
    | .absent => onActive Reader.missed s
  | .uninit => hold (.opcode b) s
  | .building => hold (.opcode b) s
  | .failed _ => hold (.opcode b) s

end Sys2Proof.Machine
end

