-- ==== Sys2Proof/Machine/Branch.lean ====
section
/-! DEFINITION. The meanings of the three branch rows (45_rom_branch.md):
the engine presents the row's opcode byte, the block answers with the row's descriptor.
What the instruction does to the emulated CPU is outside the spec (00_scope.md R5). -/

namespace Sys2Proof.Machine

/-- BCC Relative (R191). -/
def execBcc (s : State) : Result := presentOpcode 0x90 s

/-- BCS Relative (R192). -/
def execBcs (s : State) : Result := presentOpcode 0xB0 s

/-- BEQ Relative (R193). -/
def execBeq (s : State) : Result := presentOpcode 0xF0 s

end Sys2Proof.Machine
end

