-- ==== Sys2Proof/Machine/Implied.lean ====
section
/-! DEFINITION. The meanings of the 25 one-byte rows (43_rom_implied.md):
the engine presents the row's opcode byte, the block answers with the row's descriptor.
What the instruction does to the emulated CPU is outside the spec (00_scope.md R5). -/

namespace Sys2Proof.Machine

/-- BRK Implicit (R121). -/
def execBrk (s : State) : Result := presentOpcode 0x00 s

/-- NOP Implicit (R122). -/
def execNop (s : State) : Result := presentOpcode 0xEA s

/-- TAX Implicit (R123). -/
def execTax (s : State) : Result := presentOpcode 0xAA s

/-- TAY Implicit (R124). -/
def execTay (s : State) : Result := presentOpcode 0xA8 s

/-- TSX Implicit (R125). -/
def execTsx (s : State) : Result := presentOpcode 0xBA s

/-- TXA Implicit (R126). -/
def execTxa (s : State) : Result := presentOpcode 0x8A s

/-- TXS Implicit (R127). -/
def execTxs (s : State) : Result := presentOpcode 0x9A s

/-- TYA Implicit (R128). -/
def execTya (s : State) : Result := presentOpcode 0x98 s

/-- PHA Implicit (R129). -/
def execPha (s : State) : Result := presentOpcode 0x48 s

/-- PHP Implicit (R130). -/
def execPhp (s : State) : Result := presentOpcode 0x08 s

/-- PLA Implicit (R131). -/
def execPla (s : State) : Result := presentOpcode 0x68 s

/-- PLP Implicit (R132). -/
def execPlp (s : State) : Result := presentOpcode 0x28 s

/-- RTI Implicit (R133). -/
def execRti (s : State) : Result := presentOpcode 0x40 s

/-- RTS Implicit (R134). -/
def execRts (s : State) : Result := presentOpcode 0x60 s

/-- INX Implicit (R135). -/
def execInx (s : State) : Result := presentOpcode 0xE8 s

/-- INY Implicit (R136). -/
def execIny (s : State) : Result := presentOpcode 0xC8 s

/-- DEX Implicit (R137). -/
def execDex (s : State) : Result := presentOpcode 0xCA s

/-- DEY Implicit (R138). -/
def execDey (s : State) : Result := presentOpcode 0x88 s

/-- CLC Implicit (R139). -/
def execClc (s : State) : Result := presentOpcode 0x18 s

/-- CLD Implicit (R140). -/
def execCld (s : State) : Result := presentOpcode 0xD8 s

/-- CLI Implicit (R141). -/
def execCli (s : State) : Result := presentOpcode 0x58 s

/-- CLV Implicit (R142). -/
def execClv (s : State) : Result := presentOpcode 0xB8 s

/-- SEC Implicit (R143). -/
def execSec (s : State) : Result := presentOpcode 0x38 s

/-- SED Implicit (R144). -/
def execSed (s : State) : Result := presentOpcode 0xF8 s

/-- SEI Implicit (R145). -/
def execSei (s : State) : Result := presentOpcode 0x78 s

end Sys2Proof.Machine
end

