-- ==== Sys2Proof/Machine/LoadStore.lean ====
section
/-! DEFINITION. The meanings of the 15 rows of LDA and STA (46_rom_load_store.md):
the engine presents the row's opcode byte, the block answers with the row's descriptor.
What the instruction does to the emulated CPU is outside the spec (00_scope.md R5). -/

namespace Sys2Proof.Machine

/-- LDA Immediate (R201). -/
def execLdaImm (s : State) : Result := presentOpcode 0xA9 s

/-- LDA ZeroPage (R202). -/
def execLdaZp (s : State) : Result := presentOpcode 0xA5 s

/-- LDA ZeroPageX (R203). -/
def execLdaZpX (s : State) : Result := presentOpcode 0xB5 s

/-- LDA Absolute (R204). -/
def execLdaAbs (s : State) : Result := presentOpcode 0xAD s

/-- LDA AbsoluteX (R205). -/
def execLdaAbsX (s : State) : Result := presentOpcode 0xBD s

/-- LDA AbsoluteY (R206). -/
def execLdaAbsY (s : State) : Result := presentOpcode 0xB9 s

/-- LDA IndirectX (R207). -/
def execLdaIndX (s : State) : Result := presentOpcode 0xA1 s

/-- LDA IndirectY (R208). -/
def execLdaIndY (s : State) : Result := presentOpcode 0xB1 s

/-- STA ZeroPage (R209). -/
def execStaZp (s : State) : Result := presentOpcode 0x85 s

/-- STA ZeroPageX (R210). -/
def execStaZpX (s : State) : Result := presentOpcode 0x95 s

/-- STA Absolute (R211). -/
def execStaAbs (s : State) : Result := presentOpcode 0x8D s

/-- STA AbsoluteX (R212). -/
def execStaAbsX (s : State) : Result := presentOpcode 0x9D s

/-- STA AbsoluteY (R213). -/
def execStaAbsY (s : State) : Result := presentOpcode 0x99 s

/-- STA IndirectX (R214). -/
def execStaIndX (s : State) : Result := presentOpcode 0x81 s

/-- STA IndirectY (R215). -/
def execStaIndY (s : State) : Result := presentOpcode 0x91 s

end Sys2Proof.Machine
end

