-- ==== Sys2Proof/Machine/LogicShift.lean ====
section
/-! DEFINITION. The meanings of the 26 rows of AND, ORA, LSR and ASL (44_rom_logic_shift.md):
the engine presents the row's opcode byte, the block answers with the row's descriptor.
What the instruction does to the emulated CPU is outside the spec (00_scope.md R5). -/

namespace Sys2Proof.Machine

/-- AND Immediate (R151). -/
def execAndImm (s : State) : Result := presentOpcode 0x29 s

/-- AND ZeroPage (R152). -/
def execAndZp (s : State) : Result := presentOpcode 0x25 s

/-- AND ZeroPageX (R153). -/
def execAndZpX (s : State) : Result := presentOpcode 0x35 s

/-- AND Absolute (R154). -/
def execAndAbs (s : State) : Result := presentOpcode 0x2D s

/-- AND AbsoluteX (R155). -/
def execAndAbsX (s : State) : Result := presentOpcode 0x3D s

/-- AND AbsoluteY (R156). -/
def execAndAbsY (s : State) : Result := presentOpcode 0x39 s

/-- AND IndirectX (R157). -/
def execAndIndX (s : State) : Result := presentOpcode 0x21 s

/-- AND IndirectY (R158). -/
def execAndIndY (s : State) : Result := presentOpcode 0x31 s

/-- ORA Immediate (R159). -/
def execOraImm (s : State) : Result := presentOpcode 0x09 s

/-- ORA ZeroPage (R160). -/
def execOraZp (s : State) : Result := presentOpcode 0x05 s

/-- ORA ZeroPageX (R161). -/
def execOraZpX (s : State) : Result := presentOpcode 0x15 s

/-- ORA Absolute (R162). -/
def execOraAbs (s : State) : Result := presentOpcode 0x0D s

/-- ORA AbsoluteX (R163). -/
def execOraAbsX (s : State) : Result := presentOpcode 0x1D s

/-- ORA AbsoluteY (R164). -/
def execOraAbsY (s : State) : Result := presentOpcode 0x19 s

/-- ORA IndirectX (R165). -/
def execOraIndX (s : State) : Result := presentOpcode 0x01 s

/-- ORA IndirectY (R166). -/
def execOraIndY (s : State) : Result := presentOpcode 0x11 s

/-- LSR Accumulator (R167). -/
def execLsrAcc (s : State) : Result := presentOpcode 0x4A s

/-- LSR ZeroPage (R168). -/
def execLsrZp (s : State) : Result := presentOpcode 0x46 s

/-- LSR ZeroPageX (R169). -/
def execLsrZpX (s : State) : Result := presentOpcode 0x56 s

/-- LSR Absolute (R170). -/
def execLsrAbs (s : State) : Result := presentOpcode 0x4E s

/-- LSR AbsoluteX (R171). -/
def execLsrAbsX (s : State) : Result := presentOpcode 0x5E s

/-- ASL Accumulator (R172). -/
def execAslAcc (s : State) : Result := presentOpcode 0x0A s

/-- ASL ZeroPage (R173). -/
def execAslZp (s : State) : Result := presentOpcode 0x06 s

/-- ASL ZeroPageX (R174). -/
def execAslZpX (s : State) : Result := presentOpcode 0x16 s

/-- ASL Absolute (R175). -/
def execAslAbs (s : State) : Result := presentOpcode 0x0E s

/-- ASL AbsoluteX (R176). -/
def execAslAbsX (s : State) : Result := presentOpcode 0x1E s

end Sys2Proof.Machine
end

