-- ==== Sys2Proof/Machine/Dispatch.lean ====
section
/-! DEFINITION. The dispatch: one arm per instruction, each one call of its meaning. -/

namespace Sys2Proof.Machine

def exec (i : Instr) (s : State) : Host.Outcome State Fault Refusal :=
  match i with
  | .idle x => Sys2Proof.Machine.execIdle x s
  | .lookup b => Sys2Proof.Machine.execLookup b s
  | .rowRead k => Sys2Proof.Machine.execRowRead k s
  | .build x => Sys2Proof.Machine.execBuild x s
  | .count x => Sys2Proof.Machine.execCount x s
  | .status x => Sys2Proof.Machine.execStatus x s
  | .reserved code x => Sys2Proof.Machine.execReserved code x s
  | .brk => Sys2Proof.Machine.execBrk s
  | .nop => Sys2Proof.Machine.execNop s
  | .tax => Sys2Proof.Machine.execTax s
  | .tay => Sys2Proof.Machine.execTay s
  | .tsx => Sys2Proof.Machine.execTsx s
  | .txa => Sys2Proof.Machine.execTxa s
  | .txs => Sys2Proof.Machine.execTxs s
  | .tya => Sys2Proof.Machine.execTya s
  | .pha => Sys2Proof.Machine.execPha s
  | .php => Sys2Proof.Machine.execPhp s
  | .pla => Sys2Proof.Machine.execPla s
  | .plp => Sys2Proof.Machine.execPlp s
  | .rti => Sys2Proof.Machine.execRti s
  | .rts => Sys2Proof.Machine.execRts s
  | .inx => Sys2Proof.Machine.execInx s
  | .iny => Sys2Proof.Machine.execIny s
  | .dex => Sys2Proof.Machine.execDex s
  | .dey => Sys2Proof.Machine.execDey s
  | .clc => Sys2Proof.Machine.execClc s
  | .cld => Sys2Proof.Machine.execCld s
  | .cli => Sys2Proof.Machine.execCli s
  | .clv => Sys2Proof.Machine.execClv s
  | .sec => Sys2Proof.Machine.execSec s
  | .sed => Sys2Proof.Machine.execSed s
  | .sei => Sys2Proof.Machine.execSei s
  | .andImm => Sys2Proof.Machine.execAndImm s
  | .andZp => Sys2Proof.Machine.execAndZp s
  | .andZpX => Sys2Proof.Machine.execAndZpX s
  | .andAbs => Sys2Proof.Machine.execAndAbs s
  | .andAbsX => Sys2Proof.Machine.execAndAbsX s
  | .andAbsY => Sys2Proof.Machine.execAndAbsY s
  | .andIndX => Sys2Proof.Machine.execAndIndX s
  | .andIndY => Sys2Proof.Machine.execAndIndY s
  | .oraImm => Sys2Proof.Machine.execOraImm s
  | .oraZp => Sys2Proof.Machine.execOraZp s
  | .oraZpX => Sys2Proof.Machine.execOraZpX s
  | .oraAbs => Sys2Proof.Machine.execOraAbs s
  | .oraAbsX => Sys2Proof.Machine.execOraAbsX s
  | .oraAbsY => Sys2Proof.Machine.execOraAbsY s
  | .oraIndX => Sys2Proof.Machine.execOraIndX s
  | .oraIndY => Sys2Proof.Machine.execOraIndY s
  | .lsrAcc => Sys2Proof.Machine.execLsrAcc s
  | .lsrZp => Sys2Proof.Machine.execLsrZp s
  | .lsrZpX => Sys2Proof.Machine.execLsrZpX s
  | .lsrAbs => Sys2Proof.Machine.execLsrAbs s
  | .lsrAbsX => Sys2Proof.Machine.execLsrAbsX s
  | .aslAcc => Sys2Proof.Machine.execAslAcc s
  | .aslZp => Sys2Proof.Machine.execAslZp s
  | .aslZpX => Sys2Proof.Machine.execAslZpX s
  | .aslAbs => Sys2Proof.Machine.execAslAbs s
  | .aslAbsX => Sys2Proof.Machine.execAslAbsX s
  | .bcc => Sys2Proof.Machine.execBcc s
  | .bcs => Sys2Proof.Machine.execBcs s
  | .beq => Sys2Proof.Machine.execBeq s
  | .ldaImm => Sys2Proof.Machine.execLdaImm s
  | .ldaZp => Sys2Proof.Machine.execLdaZp s
  | .ldaZpX => Sys2Proof.Machine.execLdaZpX s
  | .ldaAbs => Sys2Proof.Machine.execLdaAbs s
  | .ldaAbsX => Sys2Proof.Machine.execLdaAbsX s
  | .ldaAbsY => Sys2Proof.Machine.execLdaAbsY s
  | .ldaIndX => Sys2Proof.Machine.execLdaIndX s
  | .ldaIndY => Sys2Proof.Machine.execLdaIndY s
  | .staZp => Sys2Proof.Machine.execStaZp s
  | .staZpX => Sys2Proof.Machine.execStaZpX s
  | .staAbs => Sys2Proof.Machine.execStaAbs s
  | .staAbsX => Sys2Proof.Machine.execStaAbsX s
  | .staAbsY => Sys2Proof.Machine.execStaAbsY s
  | .staIndX => Sys2Proof.Machine.execStaIndX s
  | .staIndY => Sys2Proof.Machine.execStaIndY s

end Sys2Proof.Machine
end

