-- ==== Sys2Proof/Machine/Turns.lean ====
section
/-! DEFINITION. What a turn of each agent does: how a code reaches `exec`, how the next opcode byte is fetched, and what
happens when nobody is scheduled. `step` (Step.lean) only chooses among these. -/

namespace Sys2Proof.Machine

/-- A code presented at the acting port runs the instruction it decodes to. An opcode byte the default map does not hold
is looked up all the same: whether it is present is a matter of `SPEC`, and an absent one is no error but the answer `Miss`
(30_encoding.md R72, 60_exceptions.md R243). -/
def runCode (c : Code) (s : State) : Result :=
  match decode c with
  | .ok i => exec i s
  | .error (.absentOpcode b) => presentOpcode b s

/-- The Reader ports accept requests (40_construct.md R97, 70_reset_and_hazards.md R270): under `Eager` not before BUILD has
ended. DEDUCED (log 12): that covers IDLE and STATUS too. -/
def State.portsOpen (s : State) : Bool := s.policy == .lazy || s.phase.settled

/-- Reader `port` acts: a held request is offered again, else the next request word is presented; with neither, it does
nothing. DESIGN CHOICE (log 15). -/
def readerTurn (port : Nat) (s : State) : Result :=
  match s.readers[port]? with
  | none => .fault .noSuchPort
  | some r =>
    match r.held with
    | some c => runCode c { s with active := port }
    | none =>
      match r.todo with
      | [] => .next { s with active := port }
      | w :: ws =>
        runCode (.request w) { s with active := port, readers := s.readers.set port { r with todo := ws } }

/-- The engine on port `port` acts with its values `e`: a held request is offered again, else the opcode byte at its `pc` is
fetched from the stream and presented (47_penalty_rules.md R221). -/
def engineTurn (port : Nat) (e : EngineIn) (s : State) : Result :=
  match s.readers[port]? with
  | none => .fault .noSuchPort
  | some r =>
    match r.held with
    | some c => runCode c { s with active := port, readers := s.readers.set port { r with engine := e } }
    | none =>
      match Mem.read s.stream r.pc with
      | none => .fault .noStreamByte
      | some b =>
        runCode (.opcode b) { s with active := port, readers := s.readers.set port { r with engine := e } }

/-- The first port holding a request out that is answered in this phase. -/
def firstAnswerable (s : State) : Option Nat :=
  s.readers.findIdx? (fun r => r.held.any (answerable s.phase))

/-- Nobody is scheduled. The Builder's step is taken if it is enabled, then the held requests that have an answer are
offered again, the lowest port first; this is the fairness the spec assumes and no more (70_reset_and_hazards.md R273,
20_memory.md R49). DESIGN CHOICE (log 2). With neither, nothing changes. -/
def quietTurn (s : State) : Result :=
  if s.phase.settled then
    match firstAnswerable s with
    | some port => readerTurn port s
    | none => .next s
  else .next (builderStep s)

/-- A turn of a Reader or the engine comes up: it is taken, unless the ports accept no request yet; then the Builder's step
comes first and the turn stays scheduled (70_reset_and_hazards.md R270). -/
def gated (turn : State → Result) (rest : List Turn) (s : State) : Result :=
  if s.portsOpen then turn { s with schedule := rest } else .next (builderStep s)

/-- One step by the schedule: one agent acts. DEDUCED (log 19). -/
def takeTurn (s : State) : Result :=
  match s.schedule with
  | [] => quietTurn s
  | .builder :: rest => .next (builderStep { s with schedule := rest })
  | .reset :: rest => .next (reboot { s with schedule := rest })
  | .reader port :: rest => gated (readerTurn port) rest s
  | .engine port e :: rest => gated (engineTurn port e) rest s

/-- Port 0 is about to present `c` and its turn comes next: a request word stands first in its Reader's list, an opcode byte
stands at its engine's `pc`. A request it may hold out is withdrawn. The turn of a placed opcode byte runs with the engine
values the port already has, where the spec leaves `taken`, `target` and the addresses to the engine (47_penalty_rules.md R220):
right after reset these are quiet (log 3), so that a placed branch is not taken. DESIGN CHOICE (log 11). -/
def placeCode (c : Code) (s : State) : State :=
  match s.readers with
  | [] => s
  | r :: rs =>
    match c with
    | .request w =>
      { s with
        readers := { r with held := none, todo := w :: r.todo } :: rs
        schedule := .reader 0 :: s.schedule }
    | .opcode b =>
      { s with
        readers := { r with held := none } :: rs
        stream := Mem.write s.stream r.pc b
        schedule := .engine 0 r.engine :: s.schedule }

end Sys2Proof.Machine
end

