-- ==== Sys2Proof/Machine/Step.lean ====
section
/-! DEFINITION. The step of the machine, and where its next instruction is placed. -/

namespace Sys2Proof.Machine

/-- One step: the agent whose turn it is acts. -/
def step (s : State) : Host.Outcome State Fault Refusal := takeTurn s

/-- `s` with the table word's instruction placed where the next step takes it from (log 11): the request word at reader
port 0, or the opcode byte at the `pc` of the engine on port 0, and that port's turn at the head of the schedule. -/
def State.withFetchWord (s : State) (nbits w : Nat) : State :=
  match codeOfTableWord nbits w with
  | some c => placeCode c s
  | none => s

end Sys2Proof.Machine
end

