-- ==== Sys2Proof/Safety.lean ====
section
/-! DEFINITION. What a good state is, in the terms the statements use. -/

namespace Sys2Proof.Machine

/-- The registers of each phase hold what 10_state.md R33 says: in `Ready` the table is valid and `IDX` is the index BUILD
derives from it (R27 is what that index satisfies); in `Failed` the table is inconsistent and `FAILINFO` is BUILD's report. -/
def PhaseOk (spec : List Descriptor) : Phase → Prop
  | .uninit => True
  | .building => True
  | .ready idx => SpecValid spec ∧ idx = deriveIndex spec
  | .failed info => validate spec = .error info

/-- Only a request that waits for BUILD is ever held out: not IDLE, not STATUS and not a reserved command
(40_construct.md R97 to R99). -/
def holdable (c : Code) : Bool :=
  match decode c with
  | .ok (.idle _) => false
  | .ok (.status _) => false
  | .ok (.reserved _ _) => false
  | _ => true

/-- A port that holds a request out shows no response (41_lookup.md R103). -/
def Reader.portOk (r : Reader) : Bool :=
  match r.held with
  | none => true
  | some c => holdable c && r.resp.isNone

/-- The invariant of the machine: the block's registers as `PhaseOk`, every port as `portOk`, at least one reader port
(00_scope.md R8), and the stream in its canonical form. -/
structure MachineInv (s : State) : Prop where
  phase  : PhaseOk s.spec s.phase
  ports  : ∀ r ∈ s.readers, r.portOk = true
  nonempty : 0 < s.readers.length
  stream : Mem.wf s.stream

/-- The block works: BUILD has ended well (70_reset_and_hazards.md R271). -/
def Working (s : State) : Prop := ∃ idx, s.phase = .ready idx

/-- A run is safe up to this state when construction has not failed ("`Failed` is a fault state, never final",
60_exceptions.md R246) and so no Reader is stuck. -/
def Safe (s : State) : Prop := s.phase.initState ≠ .failed

end Sys2Proof.Machine
end

