-- ==== Sys2Proof/Certificates/Slice0/Obligations.lean ====
section
/-! DEFINITION. The statements about the machine, for the provers. Each docstring names the rules of spec/ it formalises. -/

open Sys2Proof Sys2Proof.Machine

namespace Sys2Proof.Claims

/-- `r` is the record of the acting Reader. -/
def AtPort (s : State) (r : Reader) : Prop := s.readers[s.active]? = some r

/-- The state in which the acting Reader's record is `r` and nothing else is changed. -/
def withReader (s : State) (r : Reader) : State := { s with readers := s.readers.set s.active r }

/-- The acting Reader gets the response `x`; nothing else changes. -/
def Answers (i : Instr) (s : State) (r : Reader) (x : Response) : Prop :=
  exec i s = .next (withReader s { r with held := none, resp := some x })

/-- `r` with the code `c` held out and no response. -/
def heldOut (r : Reader) (c : Code) : Reader := { r with held := some c, resp := none }

/-- `r` with `Hit(d)`, at the next opcode byte and charged `cycles`. -/
def consumed (r : Reader) (d : Descriptor) (cycles : Nat) : Reader :=
  { r with
    held := none
    resp := some (.hit d)
    pc := match r.engine.transfer with
      | none => r.pc + BitVec.ofNat 16 d.length
      | some t => t
    cycles := r.cycles + cycles }

/-- `r` with `Miss`, charged nothing and gone on where its engine's policy says (log 8). -/
def missed (r : Reader) : Reader :=
  { r with
    held := none
    resp := some .miss
    pc := match r.engine.onMiss with
      | none => r.pc
      | some a => a }

/-- The acting Reader holds the instruction's code out and has no response; nothing else changes. -/
def Holds (i : Instr) (s : State) (r : Reader) : Prop := exec i s = .next (withReader s (heldOut r (encode i)))

/-- The engine's Reader gets `Hit(d)`, goes to the next opcode byte and is charged `cycles`; nothing else changes. -/
def Consumes (i : Instr) (s : State) (r : Reader) (d : Descriptor) (cycles : Nat) : Prop :=
  exec i s = .next (withReader s (consumed r d cycles))

/-- The engine's Reader gets `Miss`, is charged nothing and goes on where its policy says; nothing else changes. -/
def Misses (i : Instr) (s : State) (r : Reader) : Prop := exec i s = .next (withReader s (missed r))

/-- Instructions that wait for BUILD: every one but IDLE, STATUS and the reserved commands. -/
def waits : Instr → Bool
  | .idle _ => false
  | .status _ => false
  | .reserved _ _ => false
  | _ => true

/-- The read operations: those that wait, less BUILD. -/
def reads : Instr → Bool
  | .build _ => false
  | i => waits i

/-- The seven command rows. -/
def isCommand (i : Instr) : Bool :=
  match encode i with
  | .request _ => true
  | .opcode _ => false

/-- No reset is scheduled. -/
def NoReset (s : State) : Prop := ∀ u ∈ s.schedule, u ≠ .reset

/-- What every instruction leaves unchanged: the block, the parameters, the schedule, every byte of the stream, every other
port, and the acting Reader's list of requests and engine values. -/
def PortFrame (s t : State) : Prop :=
  t.spec = s.spec ∧ t.phase = s.phase ∧ t.policy = s.policy ∧ t.active = s.active ∧
  t.schedule = s.schedule ∧ (∀ a, Mem.read t.stream a = Mem.read s.stream a) ∧
  t.readers.length = s.readers.length ∧ (∀ p, p ≠ s.active → t.readers[p]? = s.readers[p]?) ∧
  (∀ r r', AtPort s r → AtPort t r' → r'.todo = r.todo ∧ r'.engine = r.engine)

/-- What the charge of a row is, by its markers (47_penalty_rules.md R224 to R226). -/
def rowCharge (d : Descriptor) (pc : Addr) (e : EngineIn) : Nat :=
  d.baseCycles +
  (if d.penalty.p = true ∧ e.baseAddr.toNat / 256 ≠ e.effAddr.toNat / 256 then 1 else 0) +
  (if d.penalty.b = true then
    match e.transfer with
    | none => 0
    | some t => if t.toNat / 256 = (pc + 2).toNat / 256 then 1 else 2
  else 0)

/-- `o` is what comes of handing the opcode byte `b` over at the acting port of `s`, whose record is `r`, for every byte,
whether the decoder's default map holds it or not (20_memory.md R44: presence is a matter of `SPEC`): in `Ready` a row of `SPEC`
with that opcode is a hit by that row, and no such row a miss; in `Uninit`, `Building` and `Failed` the byte is held out
without a response. Nothing else changes. -/
def GoesByTheTable (o : Result) (s : State) (r : Reader) (b : Byte) : Prop :=
  (Working s → ∀ d ∈ s.spec, d.opcode = b → o = .next (withReader s (consumed r d (rowCharge d r.pc r.engine)))) ∧
  (Working s → (∀ d ∈ s.spec, d.opcode ≠ b) → o = .next (withReader s (missed r))) ∧
  (s.phase.initState ≠ .ready → o = .next (withReader s (heldOut r (.opcode b))))

/-- `o` is what comes of offering the code `c` again at the acting port of `s`, whose record is `r`: the instruction it
decodes to runs, and an opcode byte goes by the table even if it decodes to none. -/
def OffersAgain (o : Result) (s : State) (r : Reader) (c : Code) : Prop :=
  (∀ i, decode c = .ok i → o = exec i s) ∧
  (∀ b, c = .opcode b → PhaseOk s.spec s.phase → GoesByTheTable o s r b)

/-- The twelve modes in code order (30_encoding.md R62). -/
def modes : List Mode :=
  [.implicit, .accumulator, .immediate, .zeroPage, .zeroPageX, .zeroPageY,
   .absolute, .absoluteX, .absoluteY, .indirectX, .indirectY, .relative]

/-- One row rule of files 43 to 46: instruction `i` is encoded by the row's opcode byte, row number `k` of the default
`SPEC` is `d`, its packed word is `w`, and on the default table the instruction runs by `d`. -/
def RowRuns (i : Instr) (k : Nat) (d : Descriptor) (w : RomWord) : Prop :=
  encode i = .opcode d.opcode ∧ defaultSpec[k]? = some d ∧ pack d = some w ∧
  ∀ s r, AtPort s r → s.spec = defaultSpec → PhaseOk s.spec s.phase → Working s →
    Consumes i s r d (rowCharge d r.pc r.engine)

end Sys2Proof.Claims

open Sys2Proof.Claims

/-! ### Reset and the invariant -/

/-- 10_state.md R29, 00_scope.md R8: the machine right after reset has the default table and policy (the contents are log 4's);
for every authored table and either policy the block is in `Uninit` with `IDX` and `FAILINFO` without value. 40_construct.md
R97: under `Eager` a trigger is there at once, and the ports accept no request before `INIT` is `Ready` or `Failed` (that this
covers IDLE and STATUS is log 12's); under `Lazy` they are always open. -/
def Obligations.ResetLeavesUninitAndTheAuthoredTable : Prop :=
  State.reset.spec = defaultSpec ∧ State.reset.policy = .lazy ∧
  (∀ (spec : List Descriptor) (p : InitPolicy),
    let s : State := { State.reset with spec := spec, policy := p }
    s.phase.initState = .uninit ∧ s.phase.initState.code = 0b00 ∧ s.phase.idx = none ∧ s.phase.failInfo = none ∧
    (p = .eager → s.triggered = true)) ∧
  (∀ s : State, s.policy = .eager →
    (s.phase = .uninit ∨ s.phase = .building → s.portsOpen = false) ∧ (s.phase.settled = true → s.portsOpen = true)) ∧
  ∀ s : State, s.policy = .lazy → s.portsOpen = true

/-- 70_reset_and_hazards.md R270: a reset puts `INIT` to `Uninit`, abandons BUILD and held requests, and touches nothing
else. That the clients' lists and last answers stay is the model's choice (log 3). -/
def Obligations.ResetTurnAbandonsBuildAndHeldRequests : Prop :=
  ∀ s rest, s.schedule = .reset :: rest →
    ∃ t, step s = .next t ∧ t.phase = .uninit ∧ t.spec = s.spec ∧ t.policy = s.policy ∧ t.schedule = rest ∧
      (∀ a, Mem.read t.stream a = Mem.read s.stream a) ∧
      ∀ p : Nat, t.readers[p]? = s.readers[p]?.map (fun r => { r with held := none })

/-- 10_state.md R33: the invariant holds after reset. -/
def Obligations.InvariantHoldsAtReset : Prop := MachineInv State.reset

/-- 10_state.md R33, 40_construct.md R97, 41_lookup.md R103: every step keeps the invariant, from any state that meets it. -/
def Obligations.StepKeepsInvariant : Prop := ∀ s t, MachineInv s → step s = .next t → MachineInv t

/-- 10_state.md R24: the only transitions of `INIT` are `Uninit -> Building -> Ready` and `Uninit -> Building -> Failed`,
but for a reset (70_reset_and_hazards.md R270). -/
def Obligations.OnlyLegalTransitionsOfInit : Prop :=
  ∀ s t, step s = .next t →
    t.phase = s.phase ∨
    (s.phase = .uninit ∧ t.phase = .building) ∨
    (s.phase = .building ∧ validate s.spec = .ok ∧ t.phase = .ready (deriveIndex s.spec)) ∨
    (∃ info, s.phase = .building ∧ validate s.spec = .error info ∧ t.phase = .failed info) ∨
    (s.schedule.head? = some .reset ∧ t.phase = .uninit)

/-- 10_state.md R26 and R33 item 3, 20_memory.md R52: no run changes `SPEC`, nor a byte of the stream. -/
def Obligations.RunsNeverChangeTheTable : Prop :=
  ∀ (k : Nat) (s t : State), Host.Core.run Sys2Proof.core k s = .next t →
    t.spec = s.spec ∧ t.policy = s.policy ∧ ∀ a, Mem.read t.stream a = Mem.read s.stream a

/-- 10_state.md R33 item 4, 20_memory.md R51: once `INIT` is `Ready` or `Failed` it never changes, nor do `IDX` and
`FAILINFO`, while no reset comes. -/
def Obligations.SettledPhaseNeverChanges : Prop :=
  ∀ (k : Nat) (s t : State), NoReset s → s.phase.settled = true →
    Host.Core.run Sys2Proof.core k s = .next t → t.phase = s.phase

/-! ### Construction -/

/-- 40_construct.md R91, R92, R96: `validate` accepts exactly the tables in which every length fits its mode and no opcode
occurs twice. -/
def Obligations.ValidateAcceptsExactlyConsistentTables : Prop :=
  ∀ spec, validate spec = .ok ↔ SpecValid spec

/-- 60_exceptions.md R245, 10_state.md R25: the report names the first row at which either check fails, the length check
before the duplicate check. -/
def Obligations.ValidateReportsTheFirstOffendingRow : Prop :=
  ∀ spec info, validate spec = .error info ↔
    ∃ d, spec[info.row]? = some d ∧ info.opcode = d.opcode ∧ SpecValid (spec.take info.row) ∧
      ((d.length ≠ expectedLength d.mode ∧ info.reason = .lengthModeMismatch) ∨
       (d.length = expectedLength d.mode ∧ d.opcode ∈ (spec.take info.row).map (·.opcode) ∧
         info.reason = .duplicateOpcode))

/-- 40_construct.md R92, 90_conflicts.md C11: a table of more than 256 rows always fails, at a row of index at most 256. -/
def Obligations.MoreThan256RowsAlwaysFail : Prop :=
  ∀ spec : List Descriptor, 256 < spec.length → ∃ info, validate spec = .error info ∧ info.row ≤ 256

/-- 40_construct.md R93, 10_state.md R27: what a successful `build_finish` puts into `IDX`. -/
def Obligations.BuildFillsTheIndexExactly : Prop :=
  ∀ s, validate s.spec = .ok →
    (buildFinish s).spec = s.spec ∧
    ∃ idx, (buildFinish s).phase = .ready idx ∧ idx.length = 256 ∧
      ∀ b : Byte,
        (∀ i, idx[b.toNat]? = some (some i) ↔ ∃ d, s.spec[i]? = some d ∧ d.opcode = b) ∧
        (idx[b.toNat]? = some none ↔ ∀ d ∈ s.spec, d.opcode ≠ b)

/-- 40_construct.md R90, R94, R95, 60_exceptions.md R246: the Builder's turn, in every phase. -/
def Obligations.BuilderTurnIsBuildStartOrBuildFinish : Prop :=
  ∀ s rest, s.schedule = .builder :: rest →
    (s.phase = .uninit → s.triggered = true → step s = .next { s with schedule := rest, phase := .building }) ∧
    (s.phase = .uninit → s.triggered = false → step s = .next { s with schedule := rest }) ∧
    (s.phase = .building → validate s.spec = .ok →
      step s = .next { s with schedule := rest, phase := .ready (deriveIndex s.spec) }) ∧
    (∀ info, s.phase = .building → validate s.spec = .error info →
      step s = .next { s with schedule := rest, phase := .failed info }) ∧
    (s.phase.settled = true → step s = .next { s with schedule := rest })

/-- 40_construct.md R97, R98, R99: what enables `build_start`. -/
def Obligations.TriggersOfBuild : Prop :=
  (∀ s : State, s.policy = .eager → s.triggered = true) ∧
  (∀ i s t, s.phase = .uninit → waits i = true → exec i s = .next t → t.triggered = true) ∧
  (∀ i s t, (∀ r ∈ s.readers, r.held = none) → waits i = false → exec i s = .next t → t.triggered = s.triggered)

/-- 40_construct.md R96: the empty table builds, and every byte is then absent. -/
def Obligations.EmptyTableBuildsAndMissesEverything : Prop :=
  ∀ s r, s.spec = [] → s.phase = .building → AtPort s r →
    (builderStep s).phase = .ready (deriveIndex []) ∧ ∀ b, Answers (.lookup b) (builderStep s) r .miss

/-- 20_memory.md R53, 40_construct.md R96: two machines with the same `SPEC`, whatever their schedules, Readers and policies,
end BUILD with the same registers and rows. -/
def Obligations.BuildDependsOnTheTableAlone : Prop :=
  ∀ (k k' : Nat) (s s' t t' : State), MachineInv s → MachineInv s' → s.spec = s'.spec →
    Host.Core.run Sys2Proof.core k s = .next t → Host.Core.run Sys2Proof.core k' s' = .next t' →
    t.phase.settled = true → t'.phase.settled = true →
    t.phase = t'.phase ∧ allRows t = allRows t'

/-! ### The commands -/

/-- 40_construct.md R99, 30_encoding.md R73: IDLE and the reserved commands are answered `None` in every state. -/
def Obligations.IdleAndReservedAreAnsweredNone : Prop :=
  (∀ x, decodeRequest (0b000#3 ++ x) = .idle x) ∧
  (∀ x, decodeRequest (0b110#3 ++ x) = .reserved 0b110 x) ∧
  (∀ x, decodeRequest (0b111#3 ++ x) = .reserved 0b111 x) ∧
  ∀ s r, AtPort s r → (∀ x, Answers (.idle x) s r .none) ∧ ∀ code x, Answers (.reserved code x) s r .none

/-- 40_construct.md R98: STATUS is answered in every state of `INIT`, and starts no BUILD. -/
def Obligations.StatusIsAnsweredInEveryState : Prop :=
  (∀ x, decodeRequest (0b101#3 ++ x) = .status x) ∧
  (∀ s r x, AtPort s r →
    (∀ info, s.phase = .failed info → Answers (.status x) s r (.status .failed (some info))) ∧
    (s.phase.initState ≠ .failed → Answers (.status x) s r (.status s.phase.initState none))) ∧
  (Response.status .ready none).kind = 6 ∧ (Response.status .ready none).initBits = some 0b10

/-- 41_lookup.md R100: LOOKUP through the index, answered in `Ready` only; `hit` and the data of the two answers. -/
def Obligations.LookupFollowsTheIndex : Prop :=
  (∀ b, decodeRequest (0b001#3 ++ b) = .lookup b) ∧
  (∀ s r idx b, AtPort s r → s.phase = .ready idx →
    (∀ i d, idx[b.toNat]? = some (some i) → s.spec[i]? = some d → Answers (.lookup b) s r (.hit d)) ∧
    (idx[b.toNat]? = some none → Answers (.lookup b) s r .miss)) ∧
  (∀ s r b, AtPort s r → s.phase.initState ≠ .ready → Holds (.lookup b) s r) ∧
  (∀ d, (Response.hit d).kind = 1 ∧ (Response.hit d).hitSignal = true ∧ (Response.hit d).data = pack d) ∧
  Response.miss.hitSignal = false ∧ Response.miss.data = none

/-- 41_lookup.md R100, R102, R106, 20_memory.md R40: in every `Ready` state, LOOKUP of a row's opcode is a hit with that row,
and LOOKUP of any other byte a miss. -/
def Obligations.LookupHitsExactlyTheRows : Prop :=
  ∀ s r idx b, AtPort s r → PhaseOk s.spec s.phase → s.phase = .ready idx →
    (∀ d ∈ s.spec, d.opcode = b →
      Answers (.lookup b) s r (.hit d) ∧ d.length = expectedLength d.mode ∧ 1 ≤ d.length ∧ d.length ≤ 3) ∧
    ((∀ d ∈ s.spec, d.opcode ≠ b) → Answers (.lookup b) s r .miss)

/-- 42_enumerate.md R111: ROWREAD, answered in `Ready` only. -/
def Obligations.RowReadReturnsTheRow : Prop :=
  (∀ i, decodeRequest (0b010#3 ++ i) = .rowRead i) ∧
  (∀ s r idx i, AtPort s r → s.phase = .ready idx →
    (∀ d, s.spec[BitVec.toNat i]? = some d → Answers (.rowRead i) s r (.row d)) ∧
    (s.spec.length ≤ i.toNat → Answers (.rowRead i) s r .noRow)) ∧
  (∀ s r i, AtPort s r → s.phase.initState ≠ .ready → Holds (.rowRead i) s r) ∧
  (∀ d, (Response.row d).data = pack d)

/-- 42_enumerate.md R113: COUNT, answered in `Ready` only; the count is at most 256. -/
def Obligations.CountReturnsTheNumberOfRows : Prop :=
  (∀ x, decodeRequest (0b100#3 ++ x) = .count x) ∧
  (∀ s r x, AtPort s r → s.phase.initState ≠ .ready → Holds (.count x) s r) ∧
  ∀ s r idx x, AtPort s r → PhaseOk s.spec s.phase → s.phase = .ready idx →
    s.spec.length ≤ 256 ∧ Answers (.count x) s r (.count s.spec.length) ∧
    (Response.count s.spec.length).kind = 5 ∧
    (Response.count s.spec.length).data = some (BitVec.ofNat 26 s.spec.length)

/-- 40_construct.md R90, R95: BUILD after BUILD has ended changes nothing and returns the status. -/
def Obligations.BuildAgainOnlyReportsTheStatus : Prop :=
  (∀ x, decodeRequest (0b011#3 ++ x) = .build x) ∧
  ∀ s r x, AtPort s r →
    (∀ idx, s.phase = .ready idx → Answers (.build x) s r (.status .ready none)) ∧
    (∀ info, s.phase = .failed info → Answers (.build x) s r (.status .failed (some info)))

/-- 41_lookup.md R103, 40_construct.md R90, R97: before BUILD has ended every read request and BUILD hold, and so does every
opcode byte an engine hands over, a byte outside the default map included. -/
def Obligations.RequestsHoldUntilBuildHasEnded : Prop :=
  ∀ s r, AtPort s r → s.phase.settled = false →
    (∀ i, waits i = true → Holds i s r) ∧
    ∀ b, runCode (.opcode b) s = .next (withReader s (heldOut r (.opcode b)))

/-- 41_lookup.md R104: a read request in `Failed` gets no response, nor does any opcode byte an engine hands over, a byte
outside the default map included. -/
def Obligations.ReadsGetNoAnswerAfterFailure : Prop :=
  ∀ s r info, AtPort s r → s.phase = .failed info →
    (∀ i, reads i = true → Holds i s r) ∧
    ∀ b, runCode (.opcode b) s = .next (withReader s (heldOut r (.opcode b)))

/-- 41_lookup.md R104, 60_exceptions.md R246, R247: a Reader that is stuck stays so for ever, without a response; nothing
of its record but the values its engine supplies ever changes, whoever acts, while no reset comes. -/
def Obligations.StuckReadersStayStuck : Prop :=
  ∀ (k : Nat) (s t : State) (p : Nat) (r : Reader), NoReset s → s.readers[p]? = some r → r.portOk = true →
    r.stuck s.phase = true →
    Host.Core.run Sys2Proof.core k s = .next t → ∃ e, t.readers[p]? = some { r with resp := none, engine := e }

/-- 42_enumerate.md R110, R112: the sequence face agrees with LOOKUP: COUNT and the ROWREADs return ALL in authoring order,
each row is what LOOKUP of its opcode returns, and occurs once. -/
def Obligations.SequenceFaceAgreesWithLookup : Prop :=
  ∀ s r, AtPort s r → PhaseOk s.spec s.phase → Working s →
    allRows s = some s.spec ∧
    (allRequests s.spec.length).length = s.spec.length + 1 ∧
    (∀ w, (allRequests s.spec.length)[0]? = some w → Answers (decodeRequest w) s r (.count s.spec.length)) ∧
    ∀ k d, s.spec[k]? = some d →
      (∀ w, (allRequests s.spec.length)[k + 1]? = some w → Answers (decodeRequest w) s r (.row d)) ∧
      Answers (.lookup d.opcode) s r (.hit d) ∧ s.spec.count d = 1

/-! ### What instructions leave alone -/

/-- 10_state.md R20, R21, 20_memory.md R52, 42_enumerate.md R111: a command changes nothing but what its own port shows: the
request it holds out and its response. -/
def Obligations.CommandsChangeOnlyTheirPort : Prop :=
  ∀ i s t, isCommand i = true → exec i s = .next t →
    PortFrame s t ∧ ∀ r r', AtPort s r → AtPort t r' → r'.pc = r.pc ∧ r'.cycles = r.cycles

/-- 43_rom_implied.md R120 to 46_rom_load_store.md R200 ("State written: none"), 47_penalty_rules.md R221: a ROM row changes
nothing of the block; the engine is charged only with a `Hit`, and moves only with a `Hit` or, on a `Miss`, by its policy. -/
def Obligations.RomRowsChangeOnlyTheirEngine : Prop :=
  ∀ i s t, isCommand i = false → exec i s = .next t →
    PortFrame s t ∧
    ∀ r r', AtPort s r → AtPort t r' → (∀ d, r'.resp ≠ some (.hit d)) →
      r'.cycles = r.cycles ∧ (r'.pc = r.pc ∨ r'.resp = some .miss ∧ r.engine.onMiss = some r'.pc)

/-- 60_exceptions.md R240, 41_lookup.md R101: every instruction goes on, in every phase, on every port there is; a port that
does not exist is the one stop. -/
def Obligations.EveryInstructionGoesOnAtItsPort : Prop :=
  ∀ i s, (s.active < s.readers.length → ∃ t, exec i s = .next t) ∧
    (s.readers.length ≤ s.active → exec i s = .fault .noSuchPort)

/-! ### The ROM rows -/

/-- 41_lookup.md R100, R102, 47_penalty_rules.md R221, R226, for an arbitrary valid table: a ROM row runs by whatever row
the table holds under its opcode byte, and is a `Miss` where the table holds none. -/
def Obligations.RomRowsRunByTheTableInTheMachine : Prop :=
  ∀ i b s r, encode i = .opcode b → AtPort s r → PhaseOk s.spec s.phase → Working s →
    (∀ d ∈ s.spec, d.opcode = b → Consumes i s r d (rowCharge d r.pc r.engine)) ∧
    ((∀ d ∈ s.spec, d.opcode ≠ b) → Misses i s r)

/-- 43_rom_implied.md R120 to R145: the one-byte rows on the default table. -/
def Obligations.ImplicitRowsRun : Prop :=
  RowRuns .brk 0 ⟨0x00, .brk, 1, 7, .implicit, ⟨false, false⟩⟩ 0x00005C0 ∧
  RowRuns .nop 1 ⟨0xEA, .nop, 1, 2, .implicit, ⟨false, false⟩⟩ 0x3A81480 ∧
  RowRuns .tax 2 ⟨0xAA, .tax, 1, 2, .implicit, ⟨false, false⟩⟩ 0x2A82480 ∧
  RowRuns .tay 3 ⟨0xA8, .tay, 1, 2, .implicit, ⟨false, false⟩⟩ 0x2A03480 ∧
  RowRuns .tsx 4 ⟨0xBA, .tsx, 1, 2, .implicit, ⟨false, false⟩⟩ 0x2E84480 ∧
  RowRuns .txa 5 ⟨0x8A, .txa, 1, 2, .implicit, ⟨false, false⟩⟩ 0x2285480 ∧
  RowRuns .txs 6 ⟨0x9A, .txs, 1, 2, .implicit, ⟨false, false⟩⟩ 0x2686480 ∧
  RowRuns .tya 7 ⟨0x98, .tya, 1, 2, .implicit, ⟨false, false⟩⟩ 0x2607480 ∧
  RowRuns .pha 8 ⟨0x48, .pha, 1, 3, .implicit, ⟨false, false⟩⟩ 0x12084C0 ∧
  RowRuns .php 9 ⟨0x08, .php, 1, 3, .implicit, ⟨false, false⟩⟩ 0x02094C0 ∧
  RowRuns .pla 10 ⟨0x68, .pla, 1, 4, .implicit, ⟨false, false⟩⟩ 0x1A0A500 ∧
  RowRuns .plp 11 ⟨0x28, .plp, 1, 4, .implicit, ⟨false, false⟩⟩ 0x0A0B500 ∧
  RowRuns .rti 12 ⟨0x40, .rti, 1, 6, .implicit, ⟨false, false⟩⟩ 0x100C580 ∧
  RowRuns .rts 13 ⟨0x60, .rts, 1, 6, .implicit, ⟨false, false⟩⟩ 0x180D580 ∧
  RowRuns .inx 14 ⟨0xE8, .inx, 1, 2, .implicit, ⟨false, false⟩⟩ 0x3A0E480 ∧
  RowRuns .iny 15 ⟨0xC8, .iny, 1, 2, .implicit, ⟨false, false⟩⟩ 0x320F480 ∧
  RowRuns .dex 16 ⟨0xCA, .dex, 1, 2, .implicit, ⟨false, false⟩⟩ 0x3290480 ∧
  RowRuns .dey 17 ⟨0x88, .dey, 1, 2, .implicit, ⟨false, false⟩⟩ 0x2211480 ∧
  RowRuns .clc 18 ⟨0x18, .clc, 1, 2, .implicit, ⟨false, false⟩⟩ 0x0612480 ∧
  RowRuns .cld 19 ⟨0xD8, .cld, 1, 2, .implicit, ⟨false, false⟩⟩ 0x3613480 ∧
  RowRuns .cli 20 ⟨0x58, .cli, 1, 2, .implicit, ⟨false, false⟩⟩ 0x1614480 ∧
  RowRuns .clv 21 ⟨0xB8, .clv, 1, 2, .implicit, ⟨false, false⟩⟩ 0x2E15480 ∧
  RowRuns .sec 22 ⟨0x38, .sec, 1, 2, .implicit, ⟨false, false⟩⟩ 0x0E16480 ∧
  RowRuns .sed 23 ⟨0xF8, .sed, 1, 2, .implicit, ⟨false, false⟩⟩ 0x3E17480 ∧
  RowRuns .sei 24 ⟨0x78, .sei, 1, 2, .implicit, ⟨false, false⟩⟩ 0x1E18480

/-- 44_rom_logic_shift.md R150 to R166: AND and ORA on the default table. -/
def Obligations.LogicRowsRun : Prop :=
  RowRuns .andImm 25 ⟨0x29, .and, 2, 2, .immediate, ⟨false, false⟩⟩ 0x0A59888 ∧
  RowRuns .andZp 26 ⟨0x25, .and, 2, 3, .zeroPage, ⟨false, false⟩⟩ 0x09598CC ∧
  RowRuns .andZpX 27 ⟨0x35, .and, 2, 4, .zeroPageX, ⟨false, false⟩⟩ 0x0D59910 ∧
  RowRuns .andAbs 28 ⟨0x2D, .and, 3, 4, .absolute, ⟨false, false⟩⟩ 0x0B59D18 ∧
  RowRuns .andAbsX 29 ⟨0x3D, .and, 3, 4, .absoluteX, ⟨true, false⟩⟩ 0x0F59D1D ∧
  RowRuns .andAbsY 30 ⟨0x39, .and, 3, 4, .absoluteY, ⟨true, false⟩⟩ 0x0E59D21 ∧
  RowRuns .andIndX 31 ⟨0x21, .and, 2, 6, .indirectX, ⟨false, false⟩⟩ 0x08599A4 ∧
  RowRuns .andIndY 32 ⟨0x31, .and, 2, 5, .indirectY, ⟨true, false⟩⟩ 0x0C59969 ∧
  RowRuns .oraImm 33 ⟨0x09, .ora, 2, 2, .immediate, ⟨false, false⟩⟩ 0x025A888 ∧
  RowRuns .oraZp 34 ⟨0x05, .ora, 2, 3, .zeroPage, ⟨false, false⟩⟩ 0x015A8CC ∧
  RowRuns .oraZpX 35 ⟨0x15, .ora, 2, 4, .zeroPageX, ⟨false, false⟩⟩ 0x055A910 ∧
  RowRuns .oraAbs 36 ⟨0x0D, .ora, 3, 4, .absolute, ⟨false, false⟩⟩ 0x035AD18 ∧
  RowRuns .oraAbsX 37 ⟨0x1D, .ora, 3, 4, .absoluteX, ⟨true, false⟩⟩ 0x075AD1D ∧
  RowRuns .oraAbsY 38 ⟨0x19, .ora, 3, 4, .absoluteY, ⟨true, false⟩⟩ 0x065AD21 ∧
  RowRuns .oraIndX 39 ⟨0x01, .ora, 2, 6, .indirectX, ⟨false, false⟩⟩ 0x005A9A4 ∧
  RowRuns .oraIndY 40 ⟨0x11, .ora, 2, 5, .indirectY, ⟨true, false⟩⟩ 0x045A969

/-- 44_rom_logic_shift.md R150, R167 to R176: LSR and ASL on the default table. -/
def Obligations.ShiftRowsRun : Prop :=
  RowRuns .lsrAcc 41 ⟨0x4A, .lsr, 1, 2, .accumulator, ⟨false, false⟩⟩ 0x129B484 ∧
  RowRuns .lsrZp 42 ⟨0x46, .lsr, 2, 5, .zeroPage, ⟨false, false⟩⟩ 0x119B94C ∧
  RowRuns .lsrZpX 43 ⟨0x56, .lsr, 2, 6, .zeroPageX, ⟨false, false⟩⟩ 0x159B990 ∧
  RowRuns .lsrAbs 44 ⟨0x4E, .lsr, 3, 6, .absolute, ⟨false, false⟩⟩ 0x139BD98 ∧
  RowRuns .lsrAbsX 45 ⟨0x5E, .lsr, 3, 7, .absoluteX, ⟨false, false⟩⟩ 0x179BDDC ∧
  RowRuns .aslAcc 46 ⟨0x0A, .asl, 1, 2, .accumulator, ⟨false, false⟩⟩ 0x029C484 ∧
  RowRuns .aslZp 47 ⟨0x06, .asl, 2, 5, .zeroPage, ⟨false, false⟩⟩ 0x019C94C ∧
  RowRuns .aslZpX 48 ⟨0x16, .asl, 2, 6, .zeroPageX, ⟨false, false⟩⟩ 0x059C990 ∧
  RowRuns .aslAbs 49 ⟨0x0E, .asl, 3, 6, .absolute, ⟨false, false⟩⟩ 0x039CD98 ∧
  RowRuns .aslAbsX 50 ⟨0x1E, .asl, 3, 7, .absoluteX, ⟨false, false⟩⟩ 0x079CDDC

/-- 45_rom_branch.md R190 to R193: the branches on the default table. -/
def Obligations.BranchRowsRun : Prop :=
  RowRuns .bcc 51 ⟨0x90, .bcc, 2, 2, .relative, ⟨false, true⟩⟩ 0x241D8AE ∧
  RowRuns .bcs 52 ⟨0xB0, .bcs, 2, 2, .relative, ⟨false, true⟩⟩ 0x2C1E8AE ∧
  RowRuns .beq 53 ⟨0xF0, .beq, 2, 2, .relative, ⟨false, true⟩⟩ 0x3C1F8AE

/-- 46_rom_load_store.md R200 to R208: LDA on the default table. -/
def Obligations.LoadRowsRun : Prop :=
  RowRuns .ldaImm 54 ⟨0xA9, .lda, 2, 2, .immediate, ⟨false, false⟩⟩ 0x2A60888 ∧
  RowRuns .ldaZp 55 ⟨0xA5, .lda, 2, 3, .zeroPage, ⟨false, false⟩⟩ 0x29608CC ∧
  RowRuns .ldaZpX 56 ⟨0xB5, .lda, 2, 4, .zeroPageX, ⟨false, false⟩⟩ 0x2D60910 ∧
  RowRuns .ldaAbs 57 ⟨0xAD, .lda, 3, 4, .absolute, ⟨false, false⟩⟩ 0x2B60D18 ∧
  RowRuns .ldaAbsX 58 ⟨0xBD, .lda, 3, 4, .absoluteX, ⟨true, false⟩⟩ 0x2F60D1D ∧
  RowRuns .ldaAbsY 59 ⟨0xB9, .lda, 3, 4, .absoluteY, ⟨true, false⟩⟩ 0x2E60D21 ∧
  RowRuns .ldaIndX 60 ⟨0xA1, .lda, 2, 6, .indirectX, ⟨false, false⟩⟩ 0x28609A4 ∧
  RowRuns .ldaIndY 61 ⟨0xB1, .lda, 2, 5, .indirectY, ⟨true, false⟩⟩ 0x2C60969

/-- 46_rom_load_store.md R200, R209 to R215: STA on the default table. -/
def Obligations.StoreRowsRun : Prop :=
  RowRuns .staZp 62 ⟨0x85, .sta, 2, 3, .zeroPage, ⟨false, false⟩⟩ 0x21618CC ∧
  RowRuns .staZpX 63 ⟨0x95, .sta, 2, 4, .zeroPageX, ⟨false, false⟩⟩ 0x2561910 ∧
  RowRuns .staAbs 64 ⟨0x8D, .sta, 3, 4, .absolute, ⟨false, false⟩⟩ 0x2361D18 ∧
  RowRuns .staAbsX 65 ⟨0x9D, .sta, 3, 5, .absoluteX, ⟨false, false⟩⟩ 0x2761D5C ∧
  RowRuns .staAbsY 66 ⟨0x99, .sta, 3, 5, .absoluteY, ⟨false, false⟩⟩ 0x2661D60 ∧
  RowRuns .staIndX 67 ⟨0x81, .sta, 2, 6, .indirectX, ⟨false, false⟩⟩ 0x20619A4 ∧
  RowRuns .staIndY 68 ⟨0x91, .sta, 2, 6, .indirectY, ⟨false, false⟩⟩ 0x24619A8

/-- 41_lookup.md R106, 95_test_vectors.md S-1 to S-4: the source's four worked lookups. The source prints no penalty field and
says of `0xFF` only "if not defined in the subset": both are the default rows' (R135, R201, R209, log 4). -/
def Obligations.WorkedLookupsOfTheSource : Prop :=
  ∀ s r, AtPort s r → s.spec = defaultSpec → PhaseOk s.spec s.phase → Working s →
    Answers (.lookup 0xA9) s r (.hit ⟨0xA9, .lda, 2, 2, .immediate, ⟨false, false⟩⟩) ∧
    Answers (.lookup 0x85) s r (.hit ⟨0x85, .sta, 2, 3, .zeroPage, ⟨false, false⟩⟩) ∧
    Answers (.lookup 0xE8) s r (.hit ⟨0xE8, .inx, 1, 2, .implicit, ⟨false, false⟩⟩) ∧
    Answers (.lookup 0xFF) s r .miss

/-- 30_encoding.md R77, 20_memory.md R44, 70_reset_and_hazards.md R277: the properties of the default contents. -/
def Obligations.DefaultTableHasItsProperties : Prop :=
  SpecValid defaultSpec ∧ defaultSpec.length = 69 ∧
  (defaultSpec.map (fun d => (d.mnemonic, d.mode))).Nodup ∧
  (∀ m ∈ vocabulary, m ∈ defaultSpec.map (·.mnemonic)) ∧
  ((defaultSpec.filter (·.penalty.p)).map (·.opcode) = [0x3D, 0x39, 0x31, 0x1D, 0x19, 0x11, 0xBD, 0xB9, 0xB1]) ∧
  ((defaultSpec.filter (·.penalty.b)).map (·.opcode) = [0x90, 0xB0, 0xF0]) ∧
  (∀ d ∈ defaultSpec, d.mode = .relative ↔ d.penalty.b = true) ∧
  (∀ d ∈ defaultSpec, d.mnemonic = .sta → d.penalty = ⟨false, false⟩) ∧
  (defaultSpec.map (·.length)).sum = 127 ∧ (defaultSpec.map (·.baseCycles)).sum = 256

/-! ### Steps -/

/-- 30_encoding.md R68, 00_scope.md R6: a Reader's turn, when the ports are open and it holds nothing, runs the instruction
its next request word decodes to; the step only takes the turn off the schedule and the word off the Reader's list. -/
def Obligations.ReaderTurnRunsTheDecodedRequest : Prop :=
  ∀ s p r w ws rest i, s.portsOpen = true → s.schedule = .reader p :: rest → s.readers[p]? = some r →
    r.held = none → r.todo = w :: ws → decode (.request w) = .ok i →
    step s = exec i
      { s with schedule := rest, active := p, readers := s.readers.set p { r with todo := ws } }

/-- 30_encoding.md R60, 47_penalty_rules.md R221: an engine's turn, when the ports are open and it holds nothing, runs the
instruction the opcode byte at its `pc` decodes to, with the values it supplies. -/
def Obligations.EngineTurnRunsTheDecodedOpcode : Prop :=
  ∀ s p e r b rest i, s.portsOpen = true → s.schedule = .engine p e :: rest → s.readers[p]? = some r →
    r.held = none → Mem.read s.stream r.pc = some b → decode (.opcode b) = .ok i →
    step s = exec i
      { s with schedule := rest, active := p, readers := s.readers.set p { r with engine := e } }

/-- 00_scope.md R11, 41_lookup.md R103: a port that holds a code out "is offered the same step again", in a turn of its Reader,
which goes by the values its engine supplied last, or in a turn of its engine, which supplies new ones. -/
def Obligations.HeldRequestIsOfferedAgain : Prop :=
  ∀ s p r c rest, s.portsOpen = true → s.readers[p]? = some r → r.held = some c →
    (s.schedule = .reader p :: rest → OffersAgain (step s) { s with schedule := rest, active := p } r c) ∧
    ∀ e, s.schedule = .engine p e :: rest →
      OffersAgain (step s)
        { s with schedule := rest, active := p, readers := s.readers.set p { r with engine := e } }
        { r with engine := e } c

/-- 30_encoding.md R72, R74, 20_memory.md R44, 41_lookup.md R102 to R104, 60_exceptions.md R243, for EVERY opcode byte, one
outside the default map included: an engine's turn hands the byte at its address over, and it goes by the table. A byte the
table does not hold is no error: the engine gets `Miss`, is charged nothing and goes on where its own policy says (log 8).
The ports are open in `Ready` and `Failed` whatever the policy. -/
def Obligations.AbsentOpcodeByteIsAMissAndNoError : Prop :=
  ∀ s p e r b rest, s.portsOpen = true → s.schedule = .engine p e :: rest → s.readers[p]? = some r → r.held = none →
    Mem.read s.stream r.pc = some b → PhaseOk s.spec s.phase →
    GoesByTheTable (step s)
      { s with schedule := rest, active := p, readers := s.readers.set p { r with engine := e } }
      { r with engine := e } b

/-- 40_construct.md R97, 70_reset_and_hazards.md R270: under `Eager` BUILD ends before any request is accepted: two steps
from `Uninit`, and the turns of Readers and engines stay scheduled. That the Builder acts when nobody is scheduled is log 2's,
and that a turn which would ask STATUS or IDLE is put off too is log 12's (against R98 and R99). -/
def Obligations.EagerBuildsBeforeAnyRequest : Prop :=
  ∀ s : State, s.policy = .eager → s.phase = .uninit →
    (∀ u ∈ s.schedule.head?, ∃ p e, u = .reader p ∨ u = .engine p e) →
    ∃ t : State, Host.Core.run Sys2Proof.core 2 s = .next t ∧ t.phase.settled = true ∧
      t.schedule = s.schedule ∧ t.readers = s.readers

/-! ### Progress -/

/-- 20_memory.md R49, 70_reset_and_hazards.md R273: while `INIT = Building` the Builder's step is enabled and ends BUILD. That it
is taken when nobody is scheduled is the model's choice (log 2). -/
def Obligations.BuildingEndsInOneBuilderStep : Prop :=
  ∀ s, s.phase = .building → s.schedule.head? = none ∨ s.schedule.head? = some .builder →
    ∃ t, step s = .next t ∧ t.phase.settled = true ∧ t.readers = s.readers

/-- 20_memory.md R49, 41_lookup.md R103, 70_reset_and_hazards.md R273: with nobody scheduled, every held request is answered
within as many steps as there are ports (the fair order is log 2's). -/
def Obligations.HeldRequestsAreAnsweredOnceReady : Prop :=
  ∀ (s : State) (p : Nat) (r : Reader), s.schedule = [] → Working s → s.readers[p]? = some r → r.held.isSome = true →
    ∃ (k : Nat) (t : State) (r' : Reader), k ≤ s.readers.length ∧ Host.Core.run Sys2Proof.core k s = .next t ∧
      t.readers[p]? = some r' ∧ r'.held = none ∧ r'.resp.isSome = true

/-- 41_lookup.md R103, R104, 70_reset_and_hazards.md R274, for every table: the first LOOKUP under `Lazy` starts BUILD and
holds; it then gets the answer it would get later, or none at all if BUILD fails. -/
def Obligations.FirstLookupBuildsTheTableAndIsAnswered : Prop :=
  ∀ (s : State) (p : Nat) (r : Reader) (b : Byte) (ws : List ReqWord) (rest : List Turn),
    s.policy = .lazy → s.phase = .uninit →
    s.readers[p]? = some r → r.held = none → r.todo = (0b001#3 ++ b) :: ws →
    s.schedule = .reader p :: .builder :: .builder :: .reader p :: rest →
    ∃ (t : State) (r' : Reader), Host.Core.run Sys2Proof.core 4 s = .next t ∧ t.spec = s.spec ∧
      t.schedule = rest ∧ t.readers[p]? = some r' ∧
      (SpecValid s.spec → t.phase = .ready (deriveIndex s.spec) ∧ r'.held = none ∧
        (∀ d ∈ s.spec, d.opcode = b → r'.resp = some (.hit d)) ∧
        ((∀ d ∈ s.spec, d.opcode ≠ b) → r'.resp = some .miss)) ∧
      (∀ info, validate s.spec = .error info →
        t.phase = .failed info ∧ r'.held = some (.request (0b001#3 ++ b)) ∧ r'.resp = none)

/-- 40_construct.md R90, R95, R97: an explicit BUILD request under `Lazy` starts BUILD, holds until it has ended and then gets
the status. -/
def Obligations.ExplicitBuildBuildsAndReportsTheStatus : Prop :=
  ∀ (s : State) (p : Nat) (r : Reader) (x : Byte) (ws : List ReqWord) (rest : List Turn),
    s.policy = .lazy → s.phase = .uninit →
    s.readers[p]? = some r → r.held = none → r.todo = (0b011#3 ++ x) :: ws →
    s.schedule = .reader p :: .builder :: .builder :: .reader p :: rest →
    ∃ (t : State) (r' : Reader), Host.Core.run Sys2Proof.core 4 s = .next t ∧ t.spec = s.spec ∧
      t.schedule = rest ∧ t.readers[p]? = some r' ∧ r'.held = none ∧
      (SpecValid s.spec → t.phase = .ready (deriveIndex s.spec) ∧ r'.resp = some (.status .ready none)) ∧
      (∀ info, validate s.spec = .error info →
        t.phase = .failed info ∧ r'.resp = some (.status .failed (some info)))

/-! ### Concurrent Readers -/

/-- 41_lookup.md R101, R105, 60_exceptions.md R251: what an instruction does at its port depends on the table, the phase and
the port's own record alone: not on which port it is, on the other ports or on the policy. -/
def Obligations.OtherPortsDoNotMatter : Prop :=
  ∀ i s s' r, AtPort s r → AtPort s' r → s.spec = s'.spec → s.phase = s'.phase →
    ∃ t t' r', exec i s = .next t ∧ exec i s' = .next t' ∧ AtPort t r' ∧ AtPort t' r'

/-- 20_memory.md R46 item 2, 41_lookup.md R105: once `INIT` is settled the turns of two Readers can be taken in either order;
every port and the block end up the same. -/
def Obligations.TurnsOfTwoReadersCommute : Prop :=
  ∀ (s : State) (p q : Nat) (rest : List Turn), s.phase.settled = true → p ≠ q →
    p < s.readers.length → q < s.readers.length →
    ∃ t t' : State, Host.Core.run Sys2Proof.core 2 { s with schedule := .reader p :: .reader q :: rest } = .next t ∧
      Host.Core.run Sys2Proof.core 2 { s with schedule := .reader q :: .reader p :: rest } = .next t' ∧
      t.readers = t'.readers ∧ t.phase = t'.phase ∧ t.spec = t'.spec ∧ t.schedule = t'.schedule

/-! ### Encodings -/

/-- 30_encoding.md R60, R68, R71: every well-formed instruction is read back from its code, with every bit of its operand. -/
def Obligations.DecodeOfEncode : Prop := ∀ i : Instr, i.wf = true → decode (encode i) = .ok i

/-- 30_encoding.md R68, R71: the decoder reads nothing from a code that is not the instruction's own. -/
def Obligations.EncodeOfDecode : Prop := ∀ c i, decode c = .ok i → encode i = c ∧ i.wf = true

/-- 30_encoding.md R68, R71: words written out from the tables decode to what they stand for. -/
def Obligations.SampleWordsDecode : Prop :=
  decode (.request 0b00010101001) = .ok (.idle 0xA9) ∧
  decode (.request 0b00110101001) = .ok (.lookup 0xA9) ∧
  decode (.request 0b01000110110) = .ok (.rowRead 54) ∧
  decode (.request 0b01100000000) = .ok (.build 0) ∧
  decode (.request 0b10000000000) = .ok (.count 0) ∧
  decode (.request 0b10100000000) = .ok (.status 0) ∧
  decode (.request 0b11110101001) = .ok (.reserved 0b111 0xA9) ∧
  decode (.opcode 0b11101000) = .ok .inx ∧
  decode (.opcode 0b00111101) = .ok .andAbsX ∧
  decode (.opcode 0b01001010) = .ok .lsrAcc ∧
  decode (.opcode 0b11110000) = .ok .beq ∧
  decode (.opcode 0b10101001) = .ok .ldaImm ∧
  decode (.opcode 0b10010001) = .ok .staIndY ∧
  decode (.opcode 0b11111111) = .error (.absentOpcode 0xFF)

/-- 20_memory.md R44, 30_encoding.md R72: an opcode byte decodes exactly when it is one of the present addresses, which are
the opcodes of the default table. -/
def Obligations.PresentBytesAreTheDefaultOpcodes : Prop :=
  ∀ b : Byte, (∃ i, decode (.opcode b) = .ok i) ↔ b ∈ defaultSpec.map (·.opcode)

/-- 30_encoding.md R66: `pack` is injective where it is defined, a length of 0 included, and unpacking gives the descriptor
back (a length of 0 is the image of no valid descriptor). -/
def Obligations.PackLosesNothing : Prop :=
  ∀ d w, pack d = some w → (1 ≤ d.length → unpack w = some d) ∧ ∀ d', pack d' = some w → d' = d

/-- 30_encoding.md R66, R73: a word that unpacks is the packed word of what it unpacks to, and holds no reserved value. -/
def Obligations.OnlyPackedWordsUnpack : Prop :=
  ∀ w d, unpack w = some d → pack d = some w ∧ 1 ≤ d.length

/-- 30_encoding.md R69, 10_state.md R24, R25, 41_lookup.md R102, 95_test_vectors.md T-4 and P5: the bit form of the responses.
A failure report shows `INIT`, reason and opcode at every row, and the row where 8 bits hold it (90_conflicts.md C11).
That the six bits above a failure report are zero is log 9's. -/
def Obligations.ResponsesHaveTheirBitForm : Prop :=
  (∀ d n init info,
    Response.none.kind = 0 ∧ (Response.hit d).kind = 1 ∧ Response.miss.kind = 2 ∧ (Response.row d).kind = 3 ∧
    Response.noRow.kind = 4 ∧ (Response.count n).kind = 5 ∧ (Response.status init info).kind = 6) ∧
  (∀ x : Response, x.kind ≠ 7 ∧ (x.hitSignal = true ↔ ∃ d, x = .hit d)) ∧
  (∀ d, (Response.hit d).data = pack d ∧ (Response.row d).data = pack d) ∧
  (∀ n, n ≤ 256 → ∃ w, (Response.count n).data = some w ∧ w.toNat = n) ∧
  Response.none.data = .none ∧ Response.miss.data = .none ∧ Response.noRow.data = .none ∧
  (∀ init info, (Response.status init info).initBits = some init.code) ∧
  (InitState.uninit.code = 0b00 ∧ InitState.building.code = 0b01 ∧ InitState.ready.code = 0b10 ∧
    InitState.failed.code = 0b11) ∧
  (FailReason.lengthModeMismatch.code = 0b01 ∧ FailReason.duplicateOpcode.code = 0b10) ∧
  (∀ reason row opcode,
    ∃ b, (Response.status .failed (some ⟨reason, row, opcode⟩)).statusBits = some b ∧
      b.init = 0b11 ∧ b.reason = some reason.code ∧ b.opcode = some opcode ∧
      (row ≤ 255 → ∃ x, b.row = some x ∧ x.toNat = row) ∧ (255 < row → b.row = none)) ∧
  (∀ init info, init ≠ .failed →
    (Response.status init info).statusBits = some ⟨init.code, none, none, none⟩) ∧
  (∀ reason row opcode, row ≤ 255 →
    ∃ w, (Response.status .failed (some ⟨reason, row, opcode⟩)).data = some w ∧
      w.extractLsb' 0 2 = 0b11 ∧ w.extractLsb' 2 2 = reason.code ∧ (w.extractLsb' 4 8).toNat = row ∧
      w.extractLsb' 12 8 = opcode ∧ w.extractLsb' 20 6 = 0) ∧
  (Response.status .failed (some ⟨.duplicateOpcode, 5, 0xA9⟩)).data = some 0x00A905B ∧
  (Response.status .failed (some ⟨.duplicateOpcode, 69, 0xA9⟩)).data = some 0x00A945B ∧
  ∀ reason row opcode, 255 < row → (Response.status .failed (some ⟨reason, row, opcode⟩)).data = .none

/-! ### The consumer's rules -/

/-- 30_encoding.md R60, R62, R63: the twelve modes in code order, their codes and expected lengths, and how lengths, operand
bytes and formats go together. Seven of the lengths are general knowledge in the spec (log 5). -/
def Obligations.LengthIsOneMoreThanTheOperandBytes : Prop :=
  modes.map expectedLength = [1, 1, 2, 2, 2, 2, 3, 3, 3, 2, 2, 2] ∧
  modes.map modeCode = [0, 1, 2, 3, 4, 5, 6, 7, 8, 9, 10, 11] ∧
  (∀ m : Mode, expectedLength m = 1 + operandBytes m ∧ (formatOf m).length = expectedLength m ∧
    modeOfCode (modeCode m) = some m) ∧
  ∀ c : BitVec 4, 12 ≤ c.toNat → modeOfCode c = none

/-- 47_penalty_rules.md R221: the bytes an instruction occupies are its opcode byte and its operand bytes, and the next one
stands right after them unless the instruction transfers control. -/
def Obligations.InstructionOccupiesItsLength : Prop :=
  ∀ d pc e, 1 ≤ d.length →
    instructionAddrs pc d = pc :: operandAddrs pc d ∧ (operandAddrs pc d).length = d.length - 1 ∧
    (e.transfer = none → pcAfter pc d e = pc + BitVec.ofNat 16 d.length) ∧
    (∀ t, e.transfer = some t → pcAfter pc d e = t)

/-- 47_penalty_rules.md R224 and R225: marker `P` adds one cycle exactly when the indexed address is on another page than
its base; marker `B` adds none, one or two. -/
def Obligations.MarkersAddTheirPenalties : Prop :=
  ∀ d pc e,
    (d.penalty.p = true → e.effAddr.toNat / 256 ≠ e.baseAddr.toNat / 256 → penaltyP d e = 1) ∧
    (d.penalty.p = false ∨ e.effAddr.toNat / 256 = e.baseAddr.toNat / 256 → penaltyP d e = 0) ∧
    (d.penalty.b = false ∨ e.transfer = none → penaltyB d pc e = 0) ∧
    ∀ t, d.penalty.b = true → e.transfer = some t →
      (t.toNat / 256 = (pc + 2).toNat / 256 → penaltyB d pc e = 1) ∧
      (t.toNat / 256 ≠ (pc + 2).toNat / 256 → penaltyB d pc e = 2)

/-- 47_penalty_rules.md R223, R226: the charge is the base cycles and both penalties; a row with no marker costs exactly its
base cycles; without both markers on one row at most two cycles come on top (log 10). -/
def Obligations.ChargeIsBaseCyclesAndPenalties : Prop :=
  ∀ d pc e,
    cyclesCharged d pc e = d.baseCycles + penaltyP d e + penaltyB d pc e ∧
    d.baseCycles ≤ cyclesCharged d pc e ∧
    (¬(d.penalty.p = true ∧ d.penalty.b = true) → cyclesCharged d pc e ≤ d.baseCycles + 2) ∧
    (d.penalty = ⟨false, false⟩ → cyclesCharged d pc e = d.baseCycles)
end

