-- ==== Sys2Proof/Laws/State.lean ====
section
/-! SUPPORT. The small laws of the state record and of the acting port: one per field per update. -/

namespace Sys2Proof.Machine

/-! ### The record of the acting Reader -/

/-- The state in which the acting Reader's record is `r` and nothing else is changed. -/
def setActive (s : State) (r : Reader) : State := { s with readers := s.readers.set s.active r }

@[simp] theorem setActive_spec (s : State) (r : Reader) : (setActive s r).spec = s.spec := rfl
@[simp] theorem setActive_phase (s : State) (r : Reader) : (setActive s r).phase = s.phase := rfl
@[simp] theorem setActive_policy (s : State) (r : Reader) : (setActive s r).policy = s.policy := rfl
@[simp] theorem setActive_active (s : State) (r : Reader) : (setActive s r).active = s.active := rfl
@[simp] theorem setActive_stream (s : State) (r : Reader) : (setActive s r).stream = s.stream := rfl
@[simp] theorem setActive_schedule (s : State) (r : Reader) : (setActive s r).schedule = s.schedule := rfl
@[simp] theorem setActive_readers (s : State) (r : Reader) :
    (setActive s r).readers = s.readers.set s.active r := rfl

/-- Another port's record is untouched. -/
theorem setActive_other (s : State) (r : Reader) (p : Nat) (h : p ≠ s.active) :
    (setActive s r).readers[p]? = s.readers[p]? := by
  simp [Ne.symm h]

/-- The acting port's record is the new one. -/
theorem setActive_self (s : State) (r r' : Reader) (h : s.readers[s.active]? = some r') :
    (setActive s r).readers[s.active]? = some r := by
  obtain ⟨hlt, _⟩ := List.getElem?_eq_some_iff.1 h
  simp [hlt]

/-! ### The block's steps -/

@[simp] theorem buildStart_phase (s : State) : (buildStart s).phase = .building := rfl
@[simp] theorem buildStart_spec (s : State) : (buildStart s).spec = s.spec := rfl
@[simp] theorem buildStart_readers (s : State) : (buildStart s).readers = s.readers := rfl
@[simp] theorem buildStart_stream (s : State) : (buildStart s).stream = s.stream := rfl
@[simp] theorem buildStart_policy (s : State) : (buildStart s).policy = s.policy := rfl
@[simp] theorem buildStart_schedule (s : State) : (buildStart s).schedule = s.schedule := rfl

@[simp] theorem raise_phase (i : FailInfo) (s : State) : (raiseSpecInconsistency i s).phase = .failed i := rfl
@[simp] theorem raise_spec (i : FailInfo) (s : State) : (raiseSpecInconsistency i s).spec = s.spec := rfl
@[simp] theorem raise_readers (i : FailInfo) (s : State) : (raiseSpecInconsistency i s).readers = s.readers := rfl
@[simp] theorem raise_stream (i : FailInfo) (s : State) : (raiseSpecInconsistency i s).stream = s.stream := rfl
@[simp] theorem raise_policy (i : FailInfo) (s : State) : (raiseSpecInconsistency i s).policy = s.policy := rfl
@[simp] theorem raise_schedule (i : FailInfo) (s : State) : (raiseSpecInconsistency i s).schedule = s.schedule := rfl

@[simp] theorem reboot_phase (s : State) : (reboot s).phase = .uninit := rfl
@[simp] theorem reboot_spec (s : State) : (reboot s).spec = s.spec := rfl
@[simp] theorem reboot_stream (s : State) : (reboot s).stream = s.stream := rfl
@[simp] theorem reboot_policy (s : State) : (reboot s).policy = s.policy := rfl
@[simp] theorem reboot_schedule (s : State) : (reboot s).schedule = s.schedule := rfl
@[simp] theorem reboot_readers (s : State) :
    (reboot s).readers = s.readers.map (fun r => { r with held := none }) := rfl

/-! ### The views of `INIT` -/

@[simp] theorem settled_uninit : Phase.uninit.settled = false := rfl
@[simp] theorem settled_building : Phase.building.settled = false := rfl
@[simp] theorem settled_ready (idx : Index) : (Phase.ready idx).settled = true := rfl
@[simp] theorem settled_failed (info : FailInfo) : (Phase.failed info).settled = true := rfl
@[simp] theorem initState_uninit : Phase.uninit.initState = .uninit := rfl
@[simp] theorem initState_building : Phase.building.initState = .building := rfl
@[simp] theorem initState_ready (idx : Index) : (Phase.ready idx).initState = .ready := rfl
@[simp] theorem initState_failed (info : FailInfo) : (Phase.failed info).initState = .failed := rfl

/-! ### The engine's Reader -/

@[simp] theorem consume_todo (d : Descriptor) (r : Reader) : (r.consume d).todo = r.todo := rfl
@[simp] theorem consume_held (d : Descriptor) (r : Reader) : (r.consume d).held = none := rfl
@[simp] theorem consume_resp (d : Descriptor) (r : Reader) : (r.consume d).resp = some (.hit d) := rfl
@[simp] theorem consume_pc (d : Descriptor) (r : Reader) : (r.consume d).pc = pcAfter r.pc d r.engine := rfl
@[simp] theorem consume_cycles (d : Descriptor) (r : Reader) :
    (r.consume d).cycles = r.cycles + cyclesCharged d r.pc r.engine := rfl
@[simp] theorem consume_engine (d : Descriptor) (r : Reader) : (r.consume d).engine = r.engine := rfl
@[simp] theorem missed_todo (r : Reader) : r.missed.todo = r.todo := rfl
@[simp] theorem missed_held (r : Reader) : r.missed.held = none := rfl
@[simp] theorem missed_resp (r : Reader) : r.missed.resp = some .miss := rfl
@[simp] theorem missed_cycles (r : Reader) : r.missed.cycles = r.cycles := rfl
@[simp] theorem missed_engine (r : Reader) : r.missed.engine = r.engine := rfl

end Sys2Proof.Machine
end

