-- ==== Sys2Proof/Laws/Memory.lean ====
section
/-! SUPPORT. The laws of the instruction stream: read after write, and the canonical form is kept by every operation. -/

namespace Sys2Proof.Machine

theorem lookup_insert_self (k : Nat) (b : Byte) (m : Mem) : (Mem.insert k b m).lookup k = some b := by
  induction m with
  | nil => simp [Mem.insert]
  | cons c m ih =>
    obtain ⟨k', b'⟩ := c
    unfold Mem.insert
    split
    · simp [List.lookup]
    · split
      · simp [List.lookup]
      · next h1 h2 =>
        have : (k == k') = false := by simpa using h2
        simpa [List.lookup, this] using ih

theorem lookup_insert_other (k k₂ : Nat) (b : Byte) (m : Mem) (h : k₂ ≠ k) :
    (Mem.insert k b m).lookup k₂ = m.lookup k₂ := by
  have hk : (k₂ == k) = false := by simpa using h
  induction m with
  | nil => simp [Mem.insert, List.lookup, hk]
  | cons c m ih =>
    obtain ⟨k', b'⟩ := c
    unfold Mem.insert
    split
    · simp [List.lookup, hk]
    · split
      · next h1 h2 =>
        subst h2
        simp [List.lookup, hk]
      · simp only [List.lookup]
        split
        · rfl
        · exact ih

/-- A byte placed in the stream is the byte read there. -/
theorem read_write_self (m : Mem) (a : Addr) (b : Byte) : Mem.read (Mem.write m a b) a = some b :=
  lookup_insert_self a.toNat b m

/-- Placing a byte leaves every other address alone. -/
theorem read_write_other (m : Mem) (a a' : Addr) (b : Byte) (h : a' ≠ a) :
    Mem.read (Mem.write m a b) a' = Mem.read m a' :=
  lookup_insert_other a.toNat a'.toNat b m (fun e => h (BitVec.eq_of_toNat_eq e))

/-- What the cells of an insertion are. -/
theorem mem_insert (k : Nat) (b : Byte) (m : Mem) (c : Host.Cell) (h : c ∈ Mem.insert k b m) :
    c = (k, b) ∨ c ∈ m := by
  induction m with
  | nil => simpa [Mem.insert] using h
  | cons c' m ih =>
    obtain ⟨k', b'⟩ := c'
    unfold Mem.insert at h
    split at h
    · simpa using h
    · split at h
      · next h1 h2 =>
        rcases List.mem_cons.1 h with h | h
        · exact .inl h
        · exact .inr (List.mem_cons_of_mem _ h)
      · rcases List.mem_cons.1 h with h | h
        · exact .inr (h ▸ List.mem_cons_self)
        · exact (ih h).imp id (List.mem_cons_of_mem _)

theorem insert_rising (k : Nat) (b : Byte) (m : Mem) (h : m.Pairwise (fun c d => c.1 < d.1)) :
    (Mem.insert k b m).Pairwise (fun c d => c.1 < d.1) := by
  induction m with
  | nil => simp [Mem.insert]
  | cons c m ih =>
    obtain ⟨k', b'⟩ := c
    obtain ⟨hlt, hm⟩ := List.pairwise_cons.1 h
    unfold Mem.insert
    split
    · next h1 =>
      refine List.pairwise_cons.2 ⟨fun d hd => ?_, h⟩
      rcases List.mem_cons.1 hd with rfl | hd
      · exact h1
      · exact lt_trans h1 (hlt d hd)
    · split
      · next h1 h2 =>
        subst h2
        exact List.pairwise_cons.2 ⟨hlt, hm⟩
      · next h1 h2 =>
        refine List.pairwise_cons.2 ⟨fun d hd => ?_, ih hm⟩
        rcases mem_insert k b m d hd with rfl | hd
        · show k' < k
          omega
        · exact hlt d hd

/-- Placing a byte keeps the canonical form. -/
theorem write_keeps_wf (m : Mem) (a : Addr) (b : Byte) (h : Mem.wf m) : Mem.wf (Mem.write m a b) := by
  refine ⟨insert_rising a.toNat b m h.1, fun c hc => ?_⟩
  rcases mem_insert a.toNat b m c hc with rfl | hc
  · exact a.isLt
  · exact h.2 c hc

/-- Placing a run of bytes keeps the canonical form. -/
theorem writeBytes_keeps_wf (bs : List Byte) (m : Mem) (a : Addr) (h : Mem.wf m) :
    Mem.wf (Mem.writeBytes m a bs) := by
  induction bs generalizing m a with
  | nil => exact h
  | cons b bs ih => exact ih _ _ (write_keeps_wf m a b h)

/-- The stream is empty, hence canonical, at reset. -/
theorem reset_stream_wf : Mem.wf State.reset.stream := by decide

end Sys2Proof.Machine
end

