-- ==== Sys2Proof/Laws/Ops.lean ====
section
/-! SUPPORT. What each shared operation can do, said once: its inversion lemma and its result on an existing port. -/

namespace Sys2Proof.Machine

/-! ### The acting port -/

theorem onActive_of_port (f : Reader → Reader) (s : State) (r : Reader) (h : s.readers[s.active]? = some r) :
    onActive f s = .next (setActive s (f r)) := by
  simp [onActive, h, setActive]

theorem onActive_no_port (f : Reader → Reader) (s : State) (h : s.readers[s.active]? = none) :
    onActive f s = .fault .noSuchPort := by
  simp [onActive, h]

/-- If an operation on the acting port goes on, the port exists and only its record changed. -/
theorem onActive_next (f : Reader → Reader) (s t : State) (h : onActive f s = .next t) :
    ∃ r, s.readers[s.active]? = some r ∧ t = setActive s (f r) := by
  cases hr : s.readers[s.active]? with
  | none => simp [onActive, hr] at h
  | some r => exact ⟨r, rfl, by simpa [onActive, hr, setActive] using h.symm⟩

/-! ### The effect of an instruction on its port, as a function of the table and the phase -/

/-- A Reader that got its answer. -/
def Reader.answered (resp : Response) (r : Reader) : Reader := { r with held := none, resp := some resp }

/-- A Reader that holds its request out. -/
def Reader.holding (c : Code) (r : Reader) : Reader := { r with held := some c, resp := none }

@[simp] theorem answered_todo (x : Response) (r : Reader) : (r.answered x).todo = r.todo := rfl
@[simp] theorem answered_held (x : Response) (r : Reader) : (r.answered x).held = none := rfl
@[simp] theorem answered_resp (x : Response) (r : Reader) : (r.answered x).resp = some x := rfl
@[simp] theorem answered_pc (x : Response) (r : Reader) : (r.answered x).pc = r.pc := rfl
@[simp] theorem answered_cycles (x : Response) (r : Reader) : (r.answered x).cycles = r.cycles := rfl
@[simp] theorem holding_todo (c : Code) (r : Reader) : (r.holding c).todo = r.todo := rfl
@[simp] theorem holding_held (c : Code) (r : Reader) : (r.holding c).held = some c := rfl
@[simp] theorem holding_resp (c : Code) (r : Reader) : (r.holding c).resp = none := rfl
@[simp] theorem holding_pc (c : Code) (r : Reader) : (r.holding c).pc = r.pc := rfl
@[simp] theorem holding_cycles (c : Code) (r : Reader) : (r.holding c).cycles = r.cycles := rfl

/-- The effect of a read operation. -/
def readEffect (p : Phase) (c : Code) (read : Index → Response) : Reader → Reader :=
  match p with
  | .ready idx => Reader.answered (read idx)
  | .uninit => Reader.holding c
  | .building => Reader.holding c
  | .failed _ => Reader.holding c

/-- The effect of presenting an opcode byte. -/
def opcodeEffect (spec : List Descriptor) (p : Phase) (b : Byte) : Reader → Reader :=
  match p with
  | .ready idx =>
    match romRead spec idx b with
    | .present d => Reader.consume d
    | .absent => Reader.missed
  | .uninit => Reader.holding (.opcode b)
  | .building => Reader.holding (.opcode b)
  | .failed _ => Reader.holding (.opcode b)

/-- The effect of an instruction on the acting Reader. -/
def portEffect (spec : List Descriptor) (p : Phase) (i : Instr) : Reader → Reader :=
  match i with
  | .idle _ => Reader.answered .none
  | .lookup b => readEffect p (encode (.lookup b)) (fun idx => lookupResponse spec idx b)
  | .rowRead k => readEffect p (encode (.rowRead k)) (fun _ => rowReadResponse spec k)
  | .build x =>
    if p.settled then Reader.answered (statusResponse p) else Reader.holding (encode (.build x))
  | .count x => readEffect p (encode (.count x)) (fun _ => .count spec.length)
  | .status _ => Reader.answered (statusResponse p)
  | .reserved _ _ => Reader.answered .none
  | i =>
    match encode i with
    | .opcode b => opcodeEffect spec p b
    | .request _ => id

theorem answer_eq (resp : Response) (s : State) : answer resp s = onActive (Reader.answered resp) s := rfl

theorem hold_eq (c : Code) (s : State) : hold c s = onActive (Reader.holding c) s := rfl

theorem readOperation_eq (c : Code) (read : Index → Response) (s : State) :
    readOperation c read s = onActive (readEffect s.phase c read) s := by
  unfold readOperation readEffect
  cases s.phase <;> rfl

theorem presentOpcode_eq (b : Byte) (s : State) :
    presentOpcode b s = onActive (opcodeEffect s.spec s.phase b) s := by
  unfold presentOpcode opcodeEffect
  cases s.phase with
  | ready idx =>
    dsimp only
    cases romRead s.spec idx b <;> rfl
  | _ => rfl

theorem execBuild_eq (x : Byte) (s : State) :
    execBuild x s = onActive (portEffect s.spec s.phase (.build x)) s := by
  unfold execBuild portEffect
  split <;> simp [*, answer_eq, hold_eq]

/-- Every meaning acts on the acting port alone, and its effect there is a function of the table and the phase. -/
theorem exec_eq (i : Instr) (s : State) : exec i s = onActive (portEffect s.spec s.phase i) s := by
  cases i
  case idle x => exact answer_eq _ s
  case lookup b => exact readOperation_eq _ _ s
  case rowRead k => exact readOperation_eq _ _ s
  case build x => exact execBuild_eq x s
  case count x => exact readOperation_eq _ _ s
  case status x => exact answer_eq _ s
  case reserved c x => exact answer_eq _ s
  all_goals exact presentOpcode_eq _ s

/-- If a meaning goes on, the port exists and only its record changed. -/
theorem exec_next (i : Instr) (s t : State) (h : exec i s = .next t) :
    ∃ r, s.readers[s.active]? = some r ∧ t = setActive s (portEffect s.spec s.phase i r) :=
  onActive_next _ s t (exec_eq i s ▸ h)

/-- On an existing port every meaning goes on. -/
theorem exec_of_port (i : Instr) (s : State) (r : Reader) (h : s.readers[s.active]? = some r) :
    exec i s = .next (setActive s (portEffect s.spec s.phase i r)) := by
  rw [exec_eq, onActive_of_port _ s r h]

/-! ### The codes a port runs -/

/-- The effect of a code on the acting Reader. -/
def codeEffect (spec : List Descriptor) (p : Phase) (c : Code) : Reader → Reader :=
  match decode c with
  | .ok i => portEffect spec p i
  | .error (.absentOpcode b) => opcodeEffect spec p b

theorem runCode_eq (c : Code) (s : State) : runCode c s = onActive (codeEffect s.spec s.phase c) s := by
  unfold runCode codeEffect
  cases decode c with
  | ok i => exact exec_eq i s
  | error e => exact presentOpcode_eq e.1 s

/-- An opcode byte runs the row rule of that byte, whether the default map holds it or not. -/
theorem codeEffect_opcode (spec : List Descriptor) (p : Phase) (b : Byte) (i : Instr)
    (hi : encode i = .opcode b) : portEffect spec p i = opcodeEffect spec p b := by
  cases i <;> simp [encode] at hi <;> subst hi <;> rfl

/-! ### The loops of BUILD -/

/-- `validate`'s loop accepts when every row fits its mode and no row repeats an opcode, seen before or among the rows. -/
theorem validateFrom_ok (ds : List Descriptor) : ∀ i seen, validateFrom i seen ds = .ok ↔
    (∀ d ∈ ds, d.length = expectedLength d.mode) ∧ (∀ d ∈ ds, d.opcode ∉ seen) ∧ (ds.map (·.opcode)).Nodup := by
  induction ds with
  | nil => intro i seen; simp [validateFrom]
  | cons d ds ih =>
    intro i seen
    unfold validateFrom
    split
    · simp; intro h; contradiction
    · split
      · simp; intro _ _ h; contradiction
      · rw [ih]
        simp only [List.map_cons, List.nodup_cons, List.forall_mem_cons, List.mem_map]
        constructor
        · rintro ⟨a, b, c⟩
          refine ⟨⟨by tauto, a⟩, ⟨by tauto, fun x hx hm => b x hx (List.mem_cons_of_mem _ hm)⟩, ?_, c⟩
          rintro ⟨x, hx, e⟩; exact b x hx (e ▸ List.mem_cons_self)
        · rintro ⟨⟨_, a⟩, ⟨_, b⟩, c, e⟩
          refine ⟨a, fun x hx hm => ?_, e⟩
          rcases List.mem_cons.1 hm with h | h
          · exact c ⟨x, hx, h⟩
          · exact b x hx h

theorem fillIndex_length (ds : List Descriptor) : ∀ i idx, (fillIndex i idx ds).length = idx.length := by
  induction ds with
  | nil => intros; rfl
  | cons d ds ih => intro i idx; simp [fillIndex, ih]

/-- `deriveIndex`'s loop: the entry of a row's opcode is the row's number, every other entry is as before. -/
theorem fillIndex_get (ds : List Descriptor) : ∀ i idx (b : Byte), idx.length = 256 → (ds.map (·.opcode)).Nodup →
    ((∀ k d, ds[k]? = some d → d.opcode = b → (fillIndex i idx ds)[b.toNat]? = some (some (i + k))) ∧
    ((∀ d ∈ ds, d.opcode ≠ b) → (fillIndex i idx ds)[b.toNat]? = idx[b.toNat]?)) := by
  induction ds with
  | nil => intro i idx b _ _; simp [fillIndex]
  | cons d ds ih =>
    intro i idx b hl hn
    simp only [List.map_cons, List.nodup_cons] at hn
    have h := ih (i + 1) (idx.set d.opcode.toNat (some i)) b (by rw [List.length_set]; exact hl) hn.2
    constructor
    · intro k x hx e
      cases k with
      | zero =>
        simp only [List.getElem?_cons_zero, Option.some.injEq] at hx
        subst hx; subst e
        rw [fillIndex, h.2 fun y hy e => hn.1 (List.mem_map.2 ⟨y, hy, e⟩)]
        have := d.opcode.isLt
        rw [List.getElem?_set_self (by omega)]; rfl
      | succ k => rw [fillIndex, h.1 k x (by simpa using hx) e]; congr 2; omega
    · intro hb
      rw [fillIndex, h.2 fun y hy => hb y (List.mem_cons_of_mem _ hy)]
      have hne : d.opcode.toNat ≠ b.toNat := fun e => hb d List.mem_cons_self (BitVec.eq_of_toNat_eq e)
      rw [List.getElem?_set_ne hne]

/-! ### The Builder -/

/-- Everything the Builder's step can do. -/
theorem builderStep_cases (s : State) :
    builderStep s = s ∨
    (s.phase = .uninit ∧ s.triggered = true ∧ builderStep s = { s with phase := .building }) ∨
    (s.phase = .building ∧ validate s.spec = .ok ∧
      builderStep s = { s with phase := .ready (deriveIndex s.spec) }) ∨
    (∃ info, s.phase = .building ∧ validate s.spec = .error info ∧
      builderStep s = { s with phase := .failed info }) := by
  unfold builderStep
  split
  · next h =>
    split
    · next ht => exact .inr (.inl ⟨h, ht, rfl⟩)
    · exact .inl rfl
  · next h =>
    unfold buildFinish
    split
    · next hv => exact .inr (.inr (.inl ⟨h, hv, rfl⟩))
    · next info hv => exact .inr (.inr (.inr ⟨info, h, hv, rfl⟩))
  · exact .inl rfl
  · exact .inl rfl

@[simp] theorem builderStep_spec (s : State) : (builderStep s).spec = s.spec := by
  rcases builderStep_cases s with h | ⟨_, _, h⟩ | ⟨_, _, h⟩ | ⟨_, _, _, h⟩ <;> rw [h]

@[simp] theorem builderStep_readers (s : State) : (builderStep s).readers = s.readers := by
  rcases builderStep_cases s with h | ⟨_, _, h⟩ | ⟨_, _, h⟩ | ⟨_, _, _, h⟩ <;> rw [h]

@[simp] theorem builderStep_stream (s : State) : (builderStep s).stream = s.stream := by
  rcases builderStep_cases s with h | ⟨_, _, h⟩ | ⟨_, _, h⟩ | ⟨_, _, _, h⟩ <;> rw [h]

@[simp] theorem builderStep_policy (s : State) : (builderStep s).policy = s.policy := by
  rcases builderStep_cases s with h | ⟨_, _, h⟩ | ⟨_, _, h⟩ | ⟨_, _, _, h⟩ <;> rw [h]

@[simp] theorem builderStep_schedule (s : State) : (builderStep s).schedule = s.schedule := by
  rcases builderStep_cases s with h | ⟨_, _, h⟩ | ⟨_, _, h⟩ | ⟨_, _, _, h⟩ <;> rw [h]

/-! ### Turns -/

/-- Everything a Reader's turn can do when it goes on: with nothing to present it only becomes the acting port; otherwise
its record alone changes, by the effect of the code it presents. -/
theorem readerTurn_next (p : Nat) (s t : State) (h : readerTurn p s = .next t) :
    ∃ r, s.readers[p]? = some r ∧
      ((r.held = none ∧ r.todo = [] ∧ t = { s with active := p }) ∨
       (∃ c, r.held = some c ∧
          t = { s with active := p, readers := s.readers.set p (codeEffect s.spec s.phase c r) }) ∨
       (∃ w ws, r.held = none ∧ r.todo = w :: ws ∧
          t = { s with
                active := p
                readers := s.readers.set p
                  (codeEffect s.spec s.phase (.request w) { r with todo := ws }) })) := by
  unfold readerTurn at h
  cases hr : s.readers[p]? with
  | none => simp [hr] at h
  | some r =>
    refine ⟨r, rfl, ?_⟩
    cases hh : r.held with
    | some c =>
      simp only [hr, hh, runCode_eq] at h
      rw [onActive_of_port _ _ r (by simpa using hr)] at h
      exact .inr (.inl ⟨c, rfl, by simpa [setActive] using h.symm⟩)
    | none =>
      cases ht : r.todo with
      | nil =>
        simp only [hr, hh, ht] at h
        exact .inl ⟨rfl, rfl, by simpa using h.symm⟩
      | cons w ws =>
        obtain ⟨hlt, _⟩ := List.getElem?_eq_some_iff.1 hr
        simp only [hr, ht, runCode_eq] at h
        rw [hh] at h
        rw [onActive_of_port _ _ { r with todo := ws } (by simp [hlt, hh])] at h
        exact .inr (.inr ⟨w, ws, rfl, rfl, by simpa [setActive, hh] using h.symm⟩)

/-- The effect of a Reader's turn on its record. -/
def turnEffect (spec : List Descriptor) (p : Phase) (r : Reader) : Reader :=
  match r.held with
  | some c => codeEffect spec p c r
  | none =>
    match r.todo with
    | [] => r
    | w :: ws => codeEffect spec p (.request w) { r with todo := ws }

/-- On an existing port a Reader's turn goes on. -/
theorem readerTurn_of_port (p : Nat) (s : State) (r : Reader) (hr : s.readers[p]? = some r) :
    readerTurn p s =
      .next { s with active := p, readers := s.readers.set p (turnEffect s.spec s.phase r) } := by
  obtain ⟨h, hg⟩ := List.getElem?_eq_some_iff.1 hr
  unfold readerTurn turnEffect
  rw [hr]; dsimp only
  cases hh : r.held with
  | some c => dsimp only; rw [runCode_eq, onActive_of_port _ _ r hr]; rfl
  | none =>
    dsimp only
    cases r.todo with
    | nil => dsimp only; congr 2; rw [← hg]; simp
    | cons w ws =>
      dsimp only
      rw [runCode_eq, onActive_of_port _ _ { r with todo := ws } (by simp [h, hh])]
      simp [setActive, hh]

/-- Everything the engine's turn can do when it goes on: its record alone changes, by the effect of the code it presents. -/
theorem engineTurn_next (p : Nat) (e : EngineIn) (s t : State) (h : engineTurn p e s = .next t) :
    ∃ r c, s.readers[p]? = some r ∧
      (r.held = some c ∨ r.held = none ∧ ∃ b, Mem.read s.stream r.pc = some b ∧ c = .opcode b) ∧
      t = { s with
            active := p
            readers := s.readers.set p (codeEffect s.spec s.phase c { r with engine := e }) } := by
  unfold engineTurn at h
  cases hr : s.readers[p]? with
  | none => simp [hr] at h
  | some r =>
    obtain ⟨hlt, _⟩ := List.getElem?_eq_some_iff.1 hr
    rw [hr] at h; dsimp only at h
    cases hh : r.held with
    | some c =>
      rw [hh] at h; dsimp only at h
      rw [runCode_eq, onActive_of_port _ _ { r with engine := e } (by simp [hlt, hh])] at h
      exact ⟨r, c, rfl, .inl hh, by simpa [setActive, hh] using h.symm⟩
    | none =>
      rw [hh] at h; dsimp only at h
      cases hb : Mem.read s.stream r.pc with
      | none => rw [hb] at h; cases h
      | some b =>
        rw [hb] at h; dsimp only at h
        rw [runCode_eq, onActive_of_port _ _ { r with engine := e } (by simp [hlt, hh])] at h
        exact ⟨r, .opcode b, rfl, .inr ⟨hh, b, hb, rfl⟩, by simpa [setActive, hh] using h.symm⟩

/-- A turn is taken where the ports are open. -/
theorem gated_open (turn : State → Result) (rest : List Turn) (s : State) (h : s.portsOpen = true) :
    gated turn rest s = turn { s with schedule := rest } := by
  rw [gated, if_pos h]

/-- Everything a step can do when it goes on. A step puts nothing on the schedule. -/
theorem step_cases (s t : State) (h : step s = .next t) :
    (∃ sch, sch <:+ s.schedule ∧ t = builderStep { s with schedule := sch }) ∨
    (∃ sch, s.schedule = .reset :: sch ∧ t = reboot { s with schedule := sch }) ∨
    (s.schedule = [] ∧ t = s) ∨
    (∃ p sch, sch <:+ s.schedule ∧ s.portsOpen = true ∧ readerTurn p { s with schedule := sch } = .next t) ∨
    (∃ p e sch, sch <:+ s.schedule ∧ s.portsOpen = true ∧ engineTurn p e { s with schedule := sch } = .next t) := by
  unfold step takeTurn at h
  split at h
  · next hs =>
    unfold quietTurn at h
    split at h
    · next hset =>
      split at h
      · next p _ =>
        refine .inr (.inr (.inr (.inl ⟨p, [], List.nil_suffix, by simp [State.portsOpen, hset], ?_⟩)))
        simpa [← hs] using h
      · exact .inr (.inr (.inl ⟨hs, by simpa using h.symm⟩))
    · exact .inl ⟨s.schedule, List.suffix_rfl, by simpa using h.symm⟩
  · next rest hs => exact .inl ⟨rest, hs ▸ List.suffix_cons _ _, by simpa using h.symm⟩
  · next rest hs => exact .inr (.inl ⟨rest, hs, by simpa using h.symm⟩)
  · next p rest hs =>
    unfold gated at h
    split at h
    · next ho => exact .inr (.inr (.inr (.inl ⟨p, rest, hs ▸ List.suffix_cons _ _, ho, h⟩)))
    · exact .inl ⟨s.schedule, List.suffix_rfl, by simpa using h.symm⟩
  · next p e rest hs =>
    unfold gated at h
    split at h
    · next ho => exact .inr (.inr (.inr (.inr ⟨p, e, rest, hs ▸ List.suffix_cons _ _, ho, h⟩)))
    · exact .inl ⟨s.schedule, List.suffix_rfl, by simpa using h.symm⟩

/-! ### Runs -/

/-- A run of one more step begins with a step that goes on. -/
theorem run_of_step (k : Nat) (s u : State) (h : step s = .next u) :
    Host.Core.run Sys2Proof.core (k + 1) s = Host.Core.run Sys2Proof.core k u := by
  have e : Sys2Proof.core.step s = .next u := h
  simp only [Host.Core.run]
  rw [e]

theorem run_succ_next (k : Nat) (s t : State) (h : Host.Core.run Sys2Proof.core (k + 1) s = .next t) :
    ∃ u, step s = .next u ∧ Host.Core.run Sys2Proof.core k u = .next t := by
  simp only [Host.Core.run] at h
  cases hs : Sys2Proof.core.step s with
  | next u => rw [hs] at h; exact ⟨u, hs, h⟩
  | fault f => rw [hs] at h; cases h
  | refused f => rw [hs] at h; cases h

end Sys2Proof.Machine
end

