-- ==== Sys2Proof/Laws/PerInstr.lean ====
section
/-! SUPPORT. Statements about every instruction, one lemma per constructor.
The family FixedBits: the encoder's code has the bits that spec/opcode_table.json fixes for the row (its `match` under its
`mask`), in a form of the row's width. -/

namespace Sys2Proof.Laws.FixedBits

/-- The row's encoded form in spec/opcode_table.json: a request word or an opcode byte, with its mask and match. -/
inductive TableRow where
  | command (mask pattern : ReqWord)
  | rom (mask pattern : Byte)
  deriving DecidableEq, Repr

/-- The table's row of each constructor. -/
def tableRow : Instr → TableRow
  | .idle _ => .command 0x700 0x000
  | .lookup _ => .command 0x700 0x100
  | .rowRead _ => .command 0x700 0x200
  | .build _ => .command 0x700 0x300
  | .count _ => .command 0x700 0x400
  | .status _ => .command 0x700 0x500
  | .reserved _ _ => .command 0x600 0x600
  | .brk => .rom 0xFF 0x00
  | .nop => .rom 0xFF 0xEA
  | .tax => .rom 0xFF 0xAA
  | .tay => .rom 0xFF 0xA8
  | .tsx => .rom 0xFF 0xBA
  | .txa => .rom 0xFF 0x8A
  | .txs => .rom 0xFF 0x9A
  | .tya => .rom 0xFF 0x98
  | .pha => .rom 0xFF 0x48
  | .php => .rom 0xFF 0x08
  | .pla => .rom 0xFF 0x68
  | .plp => .rom 0xFF 0x28
  | .rti => .rom 0xFF 0x40
  | .rts => .rom 0xFF 0x60
  | .inx => .rom 0xFF 0xE8
  | .iny => .rom 0xFF 0xC8
  | .dex => .rom 0xFF 0xCA
  | .dey => .rom 0xFF 0x88
  | .clc => .rom 0xFF 0x18
  | .cld => .rom 0xFF 0xD8
  | .cli => .rom 0xFF 0x58
  | .clv => .rom 0xFF 0xB8
  | .sec => .rom 0xFF 0x38
  | .sed => .rom 0xFF 0xF8
  | .sei => .rom 0xFF 0x78
  | .andImm => .rom 0xFF 0x29
  | .andZp => .rom 0xFF 0x25
  | .andZpX => .rom 0xFF 0x35
  | .andAbs => .rom 0xFF 0x2D
  | .andAbsX => .rom 0xFF 0x3D
  | .andAbsY => .rom 0xFF 0x39
  | .andIndX => .rom 0xFF 0x21
  | .andIndY => .rom 0xFF 0x31
  | .oraImm => .rom 0xFF 0x09
  | .oraZp => .rom 0xFF 0x05
  | .oraZpX => .rom 0xFF 0x15
  | .oraAbs => .rom 0xFF 0x0D
  | .oraAbsX => .rom 0xFF 0x1D
  | .oraAbsY => .rom 0xFF 0x19
  | .oraIndX => .rom 0xFF 0x01
  | .oraIndY => .rom 0xFF 0x11
  | .lsrAcc => .rom 0xFF 0x4A
  | .lsrZp => .rom 0xFF 0x46
  | .lsrZpX => .rom 0xFF 0x56
  | .lsrAbs => .rom 0xFF 0x4E
  | .lsrAbsX => .rom 0xFF 0x5E
  | .aslAcc => .rom 0xFF 0x0A
  | .aslZp => .rom 0xFF 0x06
  | .aslZpX => .rom 0xFF 0x16
  | .aslAbs => .rom 0xFF 0x0E
  | .aslAbsX => .rom 0xFF 0x1E
  | .bcc => .rom 0xFF 0x90
  | .bcs => .rom 0xFF 0xB0
  | .beq => .rom 0xFF 0xF0
  | .ldaImm => .rom 0xFF 0xA9
  | .ldaZp => .rom 0xFF 0xA5
  | .ldaZpX => .rom 0xFF 0xB5
  | .ldaAbs => .rom 0xFF 0xAD
  | .ldaAbsX => .rom 0xFF 0xBD
  | .ldaAbsY => .rom 0xFF 0xB9
  | .ldaIndX => .rom 0xFF 0xA1
  | .ldaIndY => .rom 0xFF 0xB1
  | .staZp => .rom 0xFF 0x85
  | .staZpX => .rom 0xFF 0x95
  | .staAbs => .rom 0xFF 0x8D
  | .staAbsX => .rom 0xFF 0x9D
  | .staAbsY => .rom 0xFF 0x99
  | .staIndX => .rom 0xFF 0x81
  | .staIndY => .rom 0xFF 0x91

/-- A code fits a row. -/
def fits : Code → TableRow → Bool
  | .request w, .command mask pattern => w &&& mask == pattern
  | .opcode b, .rom mask pattern => b &&& mask == pattern
  | .request _, .rom _ _ => false
  | .opcode _, .command _ _ => false

/-- The family's statement. -/
def Statement (i : Instr) : Prop := i.wf = true → fits (encode i) (tableRow i) = true

theorem idle (x : Byte) : Statement (.idle x) := by
  intro _
  revert x
  decide

theorem lookup (x : Byte) : Statement (.lookup x) := by
  intro _
  revert x
  decide

theorem rowRead (x : Byte) : Statement (.rowRead x) := by
  intro _
  revert x
  decide

theorem build (x : Byte) : Statement (.build x) := by
  intro _
  revert x
  decide

theorem count (x : Byte) : Statement (.count x) := by
  intro _
  revert x
  decide

theorem status (x : Byte) : Statement (.status x) := by
  intro _
  revert x
  decide

theorem reserved (code : BitVec 3) (x : Byte) : Statement (.reserved code x) := by
  intro h
  have hc : code = 6 ∨ code = 7 := by simpa [Instr.wf] using h
  rcases hc with rfl | rfl
  all_goals
    revert x
    decide

theorem brk : Statement .brk := fun _ => rfl

theorem nop : Statement .nop := fun _ => rfl

theorem tax : Statement .tax := fun _ => rfl

theorem tay : Statement .tay := fun _ => rfl

theorem tsx : Statement .tsx := fun _ => rfl

theorem txa : Statement .txa := fun _ => rfl

theorem txs : Statement .txs := fun _ => rfl

theorem tya : Statement .tya := fun _ => rfl

theorem pha : Statement .pha := fun _ => rfl

theorem php : Statement .php := fun _ => rfl

theorem pla : Statement .pla := fun _ => rfl

theorem plp : Statement .plp := fun _ => rfl

theorem rti : Statement .rti := fun _ => rfl

theorem rts : Statement .rts := fun _ => rfl

theorem inx : Statement .inx := fun _ => rfl

theorem iny : Statement .iny := fun _ => rfl

theorem dex : Statement .dex := fun _ => rfl

theorem dey : Statement .dey := fun _ => rfl

theorem clc : Statement .clc := fun _ => rfl

theorem cld : Statement .cld := fun _ => rfl

theorem cli : Statement .cli := fun _ => rfl

theorem clv : Statement .clv := fun _ => rfl

theorem sec : Statement .sec := fun _ => rfl

theorem sed : Statement .sed := fun _ => rfl

theorem sei : Statement .sei := fun _ => rfl

theorem andImm : Statement .andImm := fun _ => rfl

theorem andZp : Statement .andZp := fun _ => rfl

theorem andZpX : Statement .andZpX := fun _ => rfl

theorem andAbs : Statement .andAbs := fun _ => rfl

theorem andAbsX : Statement .andAbsX := fun _ => rfl

theorem andAbsY : Statement .andAbsY := fun _ => rfl

theorem andIndX : Statement .andIndX := fun _ => rfl

theorem andIndY : Statement .andIndY := fun _ => rfl

theorem oraImm : Statement .oraImm := fun _ => rfl

theorem oraZp : Statement .oraZp := fun _ => rfl

theorem oraZpX : Statement .oraZpX := fun _ => rfl

theorem oraAbs : Statement .oraAbs := fun _ => rfl

theorem oraAbsX : Statement .oraAbsX := fun _ => rfl

theorem oraAbsY : Statement .oraAbsY := fun _ => rfl

theorem oraIndX : Statement .oraIndX := fun _ => rfl

theorem oraIndY : Statement .oraIndY := fun _ => rfl

theorem lsrAcc : Statement .lsrAcc := fun _ => rfl

theorem lsrZp : Statement .lsrZp := fun _ => rfl

theorem lsrZpX : Statement .lsrZpX := fun _ => rfl

theorem lsrAbs : Statement .lsrAbs := fun _ => rfl

theorem lsrAbsX : Statement .lsrAbsX := fun _ => rfl

theorem aslAcc : Statement .aslAcc := fun _ => rfl

theorem aslZp : Statement .aslZp := fun _ => rfl

theorem aslZpX : Statement .aslZpX := fun _ => rfl

theorem aslAbs : Statement .aslAbs := fun _ => rfl

theorem aslAbsX : Statement .aslAbsX := fun _ => rfl

theorem bcc : Statement .bcc := fun _ => rfl

theorem bcs : Statement .bcs := fun _ => rfl

theorem beq : Statement .beq := fun _ => rfl

theorem ldaImm : Statement .ldaImm := fun _ => rfl

theorem ldaZp : Statement .ldaZp := fun _ => rfl

theorem ldaZpX : Statement .ldaZpX := fun _ => rfl

theorem ldaAbs : Statement .ldaAbs := fun _ => rfl

theorem ldaAbsX : Statement .ldaAbsX := fun _ => rfl

theorem ldaAbsY : Statement .ldaAbsY := fun _ => rfl

theorem ldaIndX : Statement .ldaIndX := fun _ => rfl

theorem ldaIndY : Statement .ldaIndY := fun _ => rfl

theorem staZp : Statement .staZp := fun _ => rfl

theorem staZpX : Statement .staZpX := fun _ => rfl

theorem staAbs : Statement .staAbs := fun _ => rfl

theorem staAbsX : Statement .staAbsX := fun _ => rfl

theorem staAbsY : Statement .staAbsY := fun _ => rfl

theorem staIndX : Statement .staIndX := fun _ => rfl

theorem staIndY : Statement .staIndY := fun _ => rfl

end Sys2Proof.Laws.FixedBits
end

