-- ==== Sys2Proof/Tests/Slice0.lean ====
section
/-! SUPPORT. Tests of the model and witnesses for the statements. Expected results are those of spec/95_test_vectors.md
(the id stands at each test) or the words of the encoding tables of spec/30_encoding.md and spec/opcode_table.json. -/

open Sys2Proof Sys2Proof.Machine Sys2Proof.Claims

namespace Sys2Proof.Tests

/-! ### Encodings -/

/-- 30_encoding.md R68: `req[10:8]`, then `req[7:0]`. -/
theorem test_decode_commands :
    decode (.request 0b000_10101001) = .ok (.idle 0xA9) ∧
    decode (.request 0b001_10101001) = .ok (.lookup 0xA9) ∧
    decode (.request 0b010_01000100) = .ok (.rowRead 68) ∧
    decode (.request 0b011_11111111) = .ok (.build 0xFF) ∧
    decode (.request 0b100_00000000) = .ok (.count 0) ∧
    decode (.request 0b101_00000001) = .ok (.status 1) ∧
    decode (.request 0b110_10101001) = .ok (.reserved 0b110 0xA9) ∧
    decode (.request 0b111_10101001) = .ok (.reserved 0b111 0xA9) := by decide

/-- The opcode bytes of 43_rom_implied.md, bit by bit. -/
theorem test_decode_implied :
    decode (.opcode 0b00000000) = .ok .brk ∧
    decode (.opcode 0b11101010) = .ok .nop ∧
    decode (.opcode 0b10101010) = .ok .tax ∧
    decode (.opcode 0b10101000) = .ok .tay ∧
    decode (.opcode 0b10111010) = .ok .tsx ∧
    decode (.opcode 0b10001010) = .ok .txa ∧
    decode (.opcode 0b10011010) = .ok .txs ∧
    decode (.opcode 0b10011000) = .ok .tya ∧
    decode (.opcode 0b01001000) = .ok .pha ∧
    decode (.opcode 0b00001000) = .ok .php ∧
    decode (.opcode 0b01101000) = .ok .pla ∧
    decode (.opcode 0b00101000) = .ok .plp ∧
    decode (.opcode 0b01000000) = .ok .rti ∧
    decode (.opcode 0b01100000) = .ok .rts ∧
    decode (.opcode 0b11101000) = .ok .inx ∧
    decode (.opcode 0b11001000) = .ok .iny ∧
    decode (.opcode 0b11001010) = .ok .dex ∧
    decode (.opcode 0b10001000) = .ok .dey ∧
    decode (.opcode 0b00011000) = .ok .clc ∧
    decode (.opcode 0b11011000) = .ok .cld ∧
    decode (.opcode 0b01011000) = .ok .cli ∧
    decode (.opcode 0b10111000) = .ok .clv ∧
    decode (.opcode 0b00111000) = .ok .sec ∧
    decode (.opcode 0b11111000) = .ok .sed ∧
    decode (.opcode 0b01111000) = .ok .sei := by decide

/-- The opcode bytes of 44_rom_logic_shift.md, bit by bit. -/
theorem test_decode_logic :
    decode (.opcode 0b00101001) = .ok .andImm ∧
    decode (.opcode 0b00100101) = .ok .andZp ∧
    decode (.opcode 0b00110101) = .ok .andZpX ∧
    decode (.opcode 0b00101101) = .ok .andAbs ∧
    decode (.opcode 0b00111101) = .ok .andAbsX ∧
    decode (.opcode 0b00111001) = .ok .andAbsY ∧
    decode (.opcode 0b00100001) = .ok .andIndX ∧
    decode (.opcode 0b00110001) = .ok .andIndY ∧
    decode (.opcode 0b00001001) = .ok .oraImm ∧
    decode (.opcode 0b00000101) = .ok .oraZp ∧
    decode (.opcode 0b00010101) = .ok .oraZpX ∧
    decode (.opcode 0b00001101) = .ok .oraAbs ∧
    decode (.opcode 0b00011101) = .ok .oraAbsX ∧
    decode (.opcode 0b00011001) = .ok .oraAbsY ∧
    decode (.opcode 0b00000001) = .ok .oraIndX ∧
    decode (.opcode 0b00010001) = .ok .oraIndY := by decide

/-- The opcode bytes of 44_rom_logic_shift.md, bit by bit. -/
theorem test_decode_shift :
    decode (.opcode 0b01001010) = .ok .lsrAcc ∧
    decode (.opcode 0b01000110) = .ok .lsrZp ∧
    decode (.opcode 0b01010110) = .ok .lsrZpX ∧
    decode (.opcode 0b01001110) = .ok .lsrAbs ∧
    decode (.opcode 0b01011110) = .ok .lsrAbsX ∧
    decode (.opcode 0b00001010) = .ok .aslAcc ∧
    decode (.opcode 0b00000110) = .ok .aslZp ∧
    decode (.opcode 0b00010110) = .ok .aslZpX ∧
    decode (.opcode 0b00001110) = .ok .aslAbs ∧
    decode (.opcode 0b00011110) = .ok .aslAbsX := by decide

/-- The opcode bytes of 45_rom_branch.md, bit by bit. -/
theorem test_decode_branch :
    decode (.opcode 0b10010000) = .ok .bcc ∧
    decode (.opcode 0b10110000) = .ok .bcs ∧
    decode (.opcode 0b11110000) = .ok .beq := by decide

/-- The opcode bytes of 46_rom_load_store.md, bit by bit. -/
theorem test_decode_load :
    decode (.opcode 0b10101001) = .ok .ldaImm ∧
    decode (.opcode 0b10100101) = .ok .ldaZp ∧
    decode (.opcode 0b10110101) = .ok .ldaZpX ∧
    decode (.opcode 0b10101101) = .ok .ldaAbs ∧
    decode (.opcode 0b10111101) = .ok .ldaAbsX ∧
    decode (.opcode 0b10111001) = .ok .ldaAbsY ∧
    decode (.opcode 0b10100001) = .ok .ldaIndX ∧
    decode (.opcode 0b10110001) = .ok .ldaIndY := by decide

/-- The opcode bytes of 46_rom_load_store.md, bit by bit. -/
theorem test_decode_store :
    decode (.opcode 0b10000101) = .ok .staZp ∧
    decode (.opcode 0b10010101) = .ok .staZpX ∧
    decode (.opcode 0b10001101) = .ok .staAbs ∧
    decode (.opcode 0b10011101) = .ok .staAbsX ∧
    decode (.opcode 0b10011001) = .ok .staAbsY ∧
    decode (.opcode 0b10000001) = .ok .staIndX ∧
    decode (.opcode 0b10010001) = .ok .staIndY := by decide

/-- L-14 to L-17: absent bytes are rejected by name. -/
theorem test_decode_absent :
    decode (.opcode 0x1A) = .error (.absentOpcode 0x1A) ∧ decode (.opcode 0x89) = .error (.absentOpcode 0x89) ∧
    decode (.opcode 0x4C) = .error (.absentOpcode 0x4C) ∧ decode (.opcode 0x02) = .error (.absentOpcode 0x02) ∧
    decode (.opcode 0xFF) = .error (.absentOpcode 0xFF) := by decide

/-- K-6, K-7, T-5 and E-1: request words. -/
theorem test_encode_requests :
    encode (.lookup 0x00) = .request 0x100 ∧ encode (.rowRead 68) = .request 0x244 ∧
    encode (.idle 0xA9) = .request 0x0A9 ∧ encode (.count 0) = .request 0x400 ∧
    encode (.status 0) = .request 0x500 ∧ encode (.build 0) = .request 0x300 := by decide

/-- Table words: 8 bits are an opcode byte, 16 bits hold a request word (log 11). -/
theorem test_decode_table_word :
    decodeTableWord 8 0xA9 = some .ldaImm ∧ decodeTableWord 16 0x1A9 = some (.lookup 0xA9) ∧
    decodeTableWord 16 0x700 = some (.reserved 0b111 0) ∧ decodeTableWord 8 0xFF = none ∧
    decodeTableWord 16 0x800 = none ∧ decodeTableWord 24 0 = none := by decide

/-! ### Well-formedness: each check refuses an ill-formed term -/

/-- `rowLda` with another length. -/
def longLda : Descriptor := { rowLdaImm with length := 3 }

theorem test_wf_refuses_reserved_code : (Instr.reserved 0b001 0).wf = false ∧ (Instr.reserved 0b110 0).wf = true := by
  decide

/-- R91's own example. -/
theorem test_lengthOk_refuses : longLda.lengthOk = false ∧ rowLdaImm.lengthOk = true := by decide

/-- B-11: `base_cycles` 99 has no packed form; nor has a mnemonic without an id (U18). -/
theorem test_packable_refuses :
    ({ rowInx with baseCycles := 99 } : Descriptor).packable = false ∧
    ({ rowInx with mnemonic := .other "LDX" } : Descriptor).packable = false ∧
    rowInx.packable = true := by decide

theorem test_specValid_refuses :
    ¬ SpecValid [longLda] ∧ ¬ SpecValid [rowLdaImm, rowLdaImm] ∧ SpecValid [rowLdaImm, rowStaZp] := by decide

/-! ### BUILD (B-1 to B-16) -/

def row (o : Byte) (m : Mnemonic) (l c : Nat) (mode : Mode) : Descriptor :=
  { opcode := o, mnemonic := m, length := l, baseCycles := c, mode := mode, penalty := { p := false, b := false } }

/-- B-4, B-7, B-8, B-12. -/
theorem test_build_length_mismatch :
    validate [longLda] = .error ⟨.lengthModeMismatch, 0, 0xA9⟩ ∧
    validate [rowLdaImm, row 0x85 .sta 3 3 .zeroPage, rowLdaImm] = .error ⟨.lengthModeMismatch, 1, 0x85⟩ ∧
    validate [rowLdaImm, row 0xA9 .lda 1 2 .immediate] = .error ⟨.lengthModeMismatch, 1, 0xA9⟩ ∧
    validate [row 0x00 .brk 0 7 .implicit] = .error ⟨.lengthModeMismatch, 0, 0x00⟩ := by decide

/-- B-5, B-6. -/
theorem test_build_duplicate :
    validate [rowLdaImm, rowLdaImm] = .error ⟨.duplicateOpcode, 1, 0xA9⟩ ∧
    validate [rowLdaImm, row 0xA9 .and 2 2 .immediate] = .error ⟨.duplicateOpcode, 1, 0xA9⟩ := by decide

/-- B-9, B-10, B-11, B-13: what BUILD does not check. -/
theorem test_build_does_not_check :
    validate [rowLdaImm, row 0xA5 .lda 2 3 .immediate] = .ok ∧
    validate [row 0xE8 .inx 1 2 .accumulator] = .ok ∧
    validate [row 0xE8 .inx 1 99 .implicit] = .ok ∧
    validate [{ rowBcc with penalty := ⟨true, true⟩ }] = .ok := by decide

/-- The 256 rows of B-14. -/
def fullTable : List Descriptor := (List.range 256).map (fun b => row (BitVec.ofNat 8 b) .nop 1 2 .implicit)

/-- B-14, B-15: 256 rows pass, the 257th is a duplicate at row 256. -/
theorem test_build_full_table :
    validate (fullTable ++ [row 0x00 .nop 1 2 .implicit]) = .error ⟨.duplicateOpcode, 256, 0x00⟩ := by
  decide +kernel

/-- B-1. -/
theorem test_build_default_index :
    let idx := deriveIndex defaultSpec
    idx[0xA9]? = some (some 54) ∧ idx[0x85]? = some (some 62) ∧ idx[0xE8]? = some (some 14) ∧
    idx[0x00]? = some (some 0) ∧ idx[0x91]? = some (some 68) ∧ idx[0xFF]? = some none ∧
    idx.length = 256 ∧ idx.countP Option.isSome = 69 := by decide +kernel

/-- P5: the default rows and a second `0xA9`. -/
theorem test_build_reports_row_69 :
    validate (defaultSpec ++ [rowLdaImm]) = .error ⟨.duplicateOpcode, 69, 0xA9⟩ := by decide +kernel

/-! ### Commands -/

/-- One port, table `spec`, phase `p`. -/
def at1 (spec : List Descriptor) (p : Phase) : State := { State.reset with spec := spec, phase := p }

/-- The default table, built. -/
def ready : State := at1 defaultSpec (.ready (deriveIndex defaultSpec))

/-- The record of port 0 after an instruction. -/
def after (i : Instr) (s : State) : Option Reader :=
  match exec i s with
  | .next t => t.readers[0]?
  | .fault _ => none
  | .refused _ => none

/-- The response port 0 gets. -/
def respOf (i : Instr) (s : State) : Option Response := (after i s).bind (·.resp)

/-- The code port 0 holds out. -/
def heldOf (i : Instr) (s : State) : Option Code := (after i s).bind (·.held)

/-- L-1, L-4, L-16. -/
theorem test_lookup :
    respOf (.lookup 0xA9) ready = some (.hit ⟨0xA9, .lda, 2, 2, .immediate, ⟨false, false⟩⟩) ∧
    respOf (.lookup 0xFF) ready = some .miss ∧ respOf (.lookup 0xD0) ready = some .miss := by decide +kernel

/-- L-21, L-22: held while BUILD runs, and without an answer after it failed. -/
theorem test_lookup_before_and_after_failure :
    heldOf (.lookup 0xA9) (at1 [] .building) = some (.request 0x1A9) ∧
    respOf (.lookup 0xA9) (at1 [] .building) = none ∧
    heldOf (.lookup 0xE8) (at1 [] (.failed ⟨.duplicateOpcode, 69, 0xA9⟩)) = some (.request 0x1E8) ∧
    respOf (.lookup 0xE8) (at1 [] (.failed ⟨.duplicateOpcode, 69, 0xA9⟩)) = none := by decide

/-- E-3, E-8, E-9. -/
theorem test_rowRead :
    respOf (.rowRead 14) ready = some (.row ⟨0xE8, .inx, 1, 2, .implicit, ⟨false, false⟩⟩) ∧
    respOf (.rowRead 69) ready = some .noRow ∧ respOf (.rowRead 0xA9) ready = some .noRow := by decide +kernel

/-- E-1. -/
theorem test_count :
    respOf (.count 0) ready = some (.count 69) ∧ (respOf (.count 0) ready).bind Response.data = some 0x0000045 := by
  decide +kernel

/-- T-1 to T-4. -/
theorem test_status :
    respOf (.status 0) (at1 [] .uninit) = some (.status .uninit none) ∧
    (respOf (.status 0) (at1 [] .building)).bind Response.initBits = some 0b01 ∧
    (respOf (.status 0) (at1 [] (.ready []))).bind Response.initBits = some 0b10 ∧
    (respOf (.status 0) (at1 [] (.failed ⟨.duplicateOpcode, 5, 0xA9⟩))).bind Response.data = some 0x00A905B := by decide

/-- B-15's report: the row does not fit its 8 bits, the reason (`0b10`) and the opcode do (90_conflicts.md C11). -/
theorem test_status_row_256 :
    (Response.status .failed (some ⟨.duplicateOpcode, 256, 0x00⟩)).statusBits = some ⟨0b11, some 0b10, none, some 0x00⟩ := by
  decide

/-- T-5, T-6: in `Uninit` too, where nothing is held and nothing is triggered. -/
theorem test_idle_and_reserved :
    respOf (.idle 0xA9) (at1 [] .uninit) = some .none ∧ heldOf (.idle 0xA9) (at1 [] .uninit) = none ∧
    respOf (.reserved 0b110 0xA9) (at1 [] .uninit) = some .none ∧
    respOf (.reserved 0b111 0xA9) (at1 [] .uninit) = some .none := by decide

/-- T-7, T-8, P5 step 5. -/
theorem test_build_request :
    respOf (.build 0) (at1 [] (.ready [])) = some (.status .ready none) ∧
    heldOf (.build 0) (at1 [] .uninit) = some (.request 0x300) ∧
    respOf (.build 0) (at1 [] (.failed ⟨.duplicateOpcode, 69, 0xA9⟩)) =
      some (.status .failed (some ⟨.duplicateOpcode, 69, 0xA9⟩)) := by decide

/-! ### ROM rows (95_test_vectors.md section 2.5) -/

/-- `resp_data` on port 0. -/
def dataOf (i : Instr) : Option RomWord := (respOf i ready).bind Response.data

theorem test_rows_implied :
    ((defaultSpec.drop 0).take 25).filterMap (fun d => (pack d).map (fun w => (d.opcode, w))) =
      ([(0x00, 0x00005C0), (0xEA, 0x3A81480), (0xAA, 0x2A82480), (0xA8, 0x2A03480), (0xBA, 0x2E84480)] ++
       [(0x8A, 0x2285480), (0x9A, 0x2686480), (0x98, 0x2607480), (0x48, 0x12084C0), (0x08, 0x02094C0)] ++
       [(0x68, 0x1A0A500), (0x28, 0x0A0B500), (0x40, 0x100C580), (0x60, 0x180D580), (0xE8, 0x3A0E480)] ++
       [(0xC8, 0x320F480), (0xCA, 0x3290480), (0x88, 0x2211480), (0x18, 0x0612480), (0xD8, 0x3613480)] ++
       [(0x58, 0x1614480), (0xB8, 0x2E15480), (0x38, 0x0E16480), (0xF8, 0x3E17480), (0x78, 0x1E18480)] :
        List (Byte × RomWord)) := by
  decide +kernel

theorem test_rows_logic :
    ((defaultSpec.drop 25).take 16).filterMap (fun d => (pack d).map (fun w => (d.opcode, w))) =
      ([(0x29, 0x0A59888), (0x25, 0x09598CC), (0x35, 0x0D59910), (0x2D, 0x0B59D18), (0x3D, 0x0F59D1D)] ++
       [(0x39, 0x0E59D21), (0x21, 0x08599A4), (0x31, 0x0C59969), (0x09, 0x025A888), (0x05, 0x015A8CC)] ++
       [(0x15, 0x055A910), (0x0D, 0x035AD18), (0x1D, 0x075AD1D), (0x19, 0x065AD21), (0x01, 0x005A9A4)] ++
       [(0x11, 0x045A969)] :
        List (Byte × RomWord)) := by
  decide +kernel

theorem test_rows_shift :
    ((defaultSpec.drop 41).take 10).filterMap (fun d => (pack d).map (fun w => (d.opcode, w))) =
      ([(0x4A, 0x129B484), (0x46, 0x119B94C), (0x56, 0x159B990), (0x4E, 0x139BD98), (0x5E, 0x179BDDC)] ++
       [(0x0A, 0x029C484), (0x06, 0x019C94C), (0x16, 0x059C990), (0x0E, 0x039CD98), (0x1E, 0x079CDDC)] :
        List (Byte × RomWord)) := by
  decide +kernel

theorem test_rows_branch :
    ((defaultSpec.drop 51).take 3).filterMap (fun d => (pack d).map (fun w => (d.opcode, w))) =
      ([(0x90, 0x241D8AE), (0xB0, 0x2C1E8AE), (0xF0, 0x3C1F8AE)] :
        List (Byte × RomWord)) := by
  decide +kernel

theorem test_rows_load :
    ((defaultSpec.drop 54).take 8).filterMap (fun d => (pack d).map (fun w => (d.opcode, w))) =
      ([(0xA9, 0x2A60888), (0xA5, 0x29608CC), (0xB5, 0x2D60910), (0xAD, 0x2B60D18), (0xBD, 0x2F60D1D)] ++
       [(0xB9, 0x2E60D21), (0xA1, 0x28609A4), (0xB1, 0x2C60969)] :
        List (Byte × RomWord)) := by
  decide +kernel

theorem test_rows_store :
    ((defaultSpec.drop 62).take 7).filterMap (fun d => (pack d).map (fun w => (d.opcode, w))) =
      ([(0x85, 0x21618CC), (0x95, 0x2561910), (0x8D, 0x2361D18), (0x9D, 0x2761D5C), (0x99, 0x2661D60)] ++
       [(0x81, 0x20619A4), (0x91, 0x24619A8)] :
        List (Byte × RomWord)) := by
  decide +kernel

/-- One instruction of each family on the built table, its response in bits. -/
theorem test_rows_run :
    dataOf .brk = some 0x00005C0 ∧ dataOf .andAbsX = some 0x0F59D1D ∧ dataOf .lsrAcc = some 0x129B484 ∧
    dataOf .beq = some 0x3C1F8AE ∧ dataOf .ldaImm = some 0x2A60888 ∧ dataOf .staIndY = some 0x24619A8 := by
  decide +kernel

/-! ### The consumer (C-1 to C-14) -/

/-- Port 0's engine at `pc` with values `e`, the default table built. -/
def engineAt (pc : Addr) (e : EngineIn) : State :=
  { ready with readers := [{ Reader.fresh with pc := pc, engine := e }] }

/-- Address and charge of port 0 after an instruction. -/
def goes (i : Instr) (pc : Addr) (e : EngineIn) : Option (Addr × Nat) :=
  (after i (engineAt pc e)).map (fun r => (r.pc, r.cycles))

/-- C-1, C-2, C-3: marker `P` on a load, none on a store. -/
theorem test_cycles_page :
    goes .ldaAbsX 0x8000 ⟨0x12F0, 0x12FF, none, none⟩ = some (0x8003, 4) ∧
    goes .ldaAbsX 0x8000 ⟨0x12F0, 0x1300, none, none⟩ = some (0x8003, 5) ∧
    goes .staAbsX 0x8000 ⟨0x12F0, 0x1300, none, none⟩ = some (0x8003, 5) := by decide +kernel

/-- C-5, C-7, C-8: IndirectY with a crossing, IndirectX without a marker, ASL AbsoluteX. -/
theorem test_cycles_other_modes :
    goes .ldaIndY 0x8000 ⟨0x20FF, 0x2100, none, none⟩ = some (0x8002, 6) ∧
    goes .ldaIndX 0x8000 ⟨0x2000, 0x2100, none, none⟩ = some (0x8002, 6) ∧
    goes .aslAbsX 0x8000 ⟨0x12F0, 0x1300, none, none⟩ = some (0x8003, 7) := by decide +kernel

/-- C-9, C-10, C-11, C-12: a branch not taken, taken in its page, taken to the next and to the previous page. -/
theorem test_cycles_branch :
    goes .beq 0x1000 EngineIn.quiet = some (0x1002, 2) ∧
    goes .beq 0x1000 ⟨0, 0, some 0x1004, none⟩ = some (0x1004, 3) ∧
    goes .beq 0x10FD ⟨0, 0, some 0x1100, none⟩ = some (0x1100, 4) ∧
    goes .bcc 0x2000 ⟨0, 0, some 0x1FFE, none⟩ = some (0x1FFE, 4) := by decide +kernel

/-- C-14. -/
theorem test_pc_wraps : goes .inx 0xFFFF EngineIn.quiet = some (0x0000, 2) := by decide +kernel

/-- The operand forms of 47_penalty_rules.md R228 on C-2, C-5, C-6, C-11 and C-12. -/
theorem test_resolve :
    resolve [] 0x8000 .absoluteX 0xF0 0x12 0x10 0 = some (.address 0x12F0 0x1300) ∧
    resolve [(0x10, 0xFF), (0x11, 0x20)] 0x8000 .indirectY 0x10 0 0 1 = some (.address 0x20FF 0x2100) ∧
    resolve [(0x10, 0x00), (0x11, 0x20)] 0x8000 .indirectY 0x10 0 0 0xFF = some (.address 0x2000 0x20FF) ∧
    resolve [] 0x10FD .relative 0x01 0 0 0 = some (.target 0x1100) ∧
    resolve [] 0x2000 .relative 0xFC 0 0 0 = some (.target 0x1FFE) := by decide

/-- Zero-page sums wrap in page zero (R228), a pointer's second byte too. -/
theorem test_resolve_zero_page_wraps :
    resolve [] 0 .zeroPageX 0xF0 0 0x20 0 = some (.address 0xF0 0x10) ∧
    resolve [] 0 .zeroPageY 0xF0 0 0 0x20 = some (.address 0xF0 0x10) ∧
    resolve [(0x00, 0x34), (0xFF, 0x12)] 0 .indirectX 0xF0 0 0x0F 0 = some (.address 0x3412 0x3412) ∧
    resolve [] 0 .indirectX 0xF0 0 0x0F 0 = none := by decide

/-- P3: a `Miss` charges nothing; the engine stays, or goes on where its policy says. -/
theorem test_miss :
    (after .inx (at1 [] (.ready (deriveIndex [])))).map (fun r => (r.resp, r.pc, r.cycles)) =
      some (some .miss, 0, 0) ∧
    (after .inx { at1 [] (.ready (deriveIndex [])) with
        readers := [{ Reader.fresh with engine := ⟨0, 0, none, some 3⟩ }] }).map (fun r => (r.pc, r.cycles)) = some (3, 0) := by decide +kernel

/-! ### Packing, index entries, responses (K-1 to K-5) -/

theorem test_pack :
    pack rowLdaImm = some 0x2A60888 ∧ pack rowBcc = some 0x241D8AE ∧ pack rowBrk = some 0x00005C0 := by decide

/-- The unpacking check of section 2.5, and reserved values: mode code 12, mnemonic id 34, length 0 (R73). -/
theorem test_unpack :
    unpack 0x2F60D1D = some ⟨0xBD, .lda, 3, 4, .absoluteX, ⟨true, false⟩⟩ ∧
    unpack 0x2A608B0 = none ∧ unpack 0x2A62888 = none ∧ unpack 0x2A60088 = none := by decide

/-- K-4, K-5: `IDX[0xA9]` is `1 ++ 0110110`; an absent entry has no row bits. -/
theorem test_index_entry :
    rowWidth 69 = 7 ∧ (indexEntry (some 54)).bits 7 = some 0xB6 ∧ (indexEntry (some 0)).bits 7 = some 0x80 ∧
    (indexEntry none).present = false ∧ (indexEntry none).bits 7 = none := by decide +kernel

/-- R69: the response kinds, and `hit`. -/
theorem test_response_kinds :
    Response.kind .none = 0 ∧ (Response.hit rowBrk).kind = 1 ∧ Response.kind .miss = 2 ∧ (Response.row rowBrk).kind = 3 ∧
    Response.kind .noRow = 4 ∧ (Response.count 0).kind = 5 ∧ (Response.status .ready none).kind = 6 ∧
    (Response.hit rowBrk).hitSignal = true ∧ (Response.row rowBrk).hitSignal = false := by decide

/-- 30_encoding.md R64, R75: ids and names of the vocabulary. -/
theorem test_vocabulary :
    (vocabulary.map mnemonicId = (List.range 34).map (fun k => some (BitVec.ofNat 6 k))) ∧
    mnemonicOfId 33 = some .sta ∧ mnemonicOfId 34 = none ∧ vocabulary.map mnemonicName =
      ["BRK", "NOP", "TAX", "TAY", "TSX", "TXA", "TXS", "TYA", "PHA", "PHP", "PLA", "PLP"] ++
      ["RTI", "RTS", "INX", "INY", "DEX", "DEY", "CLC", "CLD", "CLI", "CLV", "SEC", "SED", "SEI"] ++
      ["AND", "ORA", "LSR", "ASL", "BCC", "BCS", "BEQ", "LDA", "STA"] := by decide

/-! ### The stream -/

theorem test_stream_reads_what_is_written :
    Mem.read (Mem.write [] 0xFFFF 0x12) 0xFFFF = some 0x12 ∧ Mem.read (Mem.write [] 0xFFFF 0x12) 0 = none ∧
    Mem.writeBytes [] 0xFFFF [1, 2] = [(0, 2), (65535, 1)] := by decide

theorem test_stream_canonical_form :
    Mem.wf (Mem.write [(1, 7), (9, 8)] 5 0x12) ∧ ¬ Mem.wf [(2, 0), (1, 0)] ∧ ¬ Mem.wf [(65536, 0)] := by decide

/-! ### Steps -/

/-- What a step answers, without its state. -/
def outcome (s : State) : Option (InitState × List Reader) :=
  match step s with
  | .next t => some (t.phase.initState, t.readers)
  | .fault _ => none
  | .refused _ => none

/-- The first instruction after reset: a lookup holds (L-20), a status is answered (L-23), an opcode byte holds. -/
theorem test_step_first_instruction :
    outcome (State.reset.withFetchWord 16 0x1A9) =
      some (.uninit, [{ Reader.fresh with held := some (.request 0x1A9) }]) ∧
    outcome (State.reset.withFetchWord 16 0x500) =
      some (.uninit, [{ Reader.fresh with resp := some (.status .uninit none) }]) ∧
    outcome (State.reset.withFetchWord 8 0xA9) =
      some (.uninit, [{ Reader.fresh with held := some (.opcode 0xA9) }]) := by decide +kernel

/-- P4 step 3 and P5 step 1: the trigger, by a held request or by `Eager`; without one nothing happens. -/
theorem test_step_build_start :
    outcome { State.reset with schedule := [.builder], readers := [{ Reader.fresh with held := some (.request 0x1A9) }] } =
      some (.building, [{ Reader.fresh with held := some (.request 0x1A9) }]) ∧
    outcome { State.reset with schedule := [.builder], policy := .eager } = some (.building, [Reader.fresh]) ∧
    outcome { State.reset with schedule := [.builder] } = some (.uninit, [Reader.fresh]) := by decide +kernel

/-- An engine with no byte at its `pc`, and a port that does not exist, are the two stops. -/
theorem test_step_stops :
    step { ready with schedule := [.engine 0 EngineIn.quiet] } = .fault .noStreamByte ∧
    step { ready with schedule := [.reader 1] } = .fault .noSuchPort := ⟨rfl, rfl⟩

/-! ### Witnesses: each statement's hypotheses, met together, every clause -/

/-- A table of two rows, one with a marker. -/
def two : List Descriptor := [rowLdaImm, rowBcc]

/-- A table BUILD refuses, and its report. -/
def bad : List Descriptor := [rowLdaImm, rowLdaImm]

def badInfo : FailInfo := { reason := .duplicateOpcode, row := 1, opcode := 0xA9 }

/-- The two rows, built. -/
def built : State := at1 two (.ready (deriveIndex two))

/-- A port that holds a LOOKUP out. -/
def waiting : Reader := { Reader.fresh with held := some (.request 0x1A9) }

theorem two_valid : SpecValid two := by decide
theorem built_ok : PhaseOk built.spec built.phase := ⟨two_valid, rfl⟩
theorem built_working : Working built := ⟨_, rfl⟩
theorem built_port : AtPort built Reader.fresh := rfl
theorem built_index : (deriveIndex two)[0xA9]? = some (some 0) ∧ (deriveIndex two)[0xFF]? = some none := by
  decide +kernel
theorem default_valid : SpecValid defaultSpec := by decide +kernel

/-- Both policies, in each phase the clauses name. -/
theorem witness_ResetLeavesUninitAndTheAuthoredTable :
    (∀ p : Phase, ∃ s : State, s.policy = .eager ∧ s.phase = p) ∧ (Phase.failed badInfo).settled = true ∧
    (at1 two .uninit).policy = .lazy :=
  ⟨fun p => ⟨{ at1 two p with policy := .eager }, rfl, rfl⟩, rfl, rfl⟩

theorem witness_ResetTurnAbandonsBuildAndHeldRequests :
    ∃ s : State, s.schedule = [.reset] ∧ s.phase = .building ∧ (∃ r ∈ s.readers, r.held = some (.request 0x1A9)) :=
  ⟨{ at1 two .building with schedule := [.reset], readers := [waiting] }, rfl, rfl, waiting, by decide, rfl⟩

/-- A held LOOKUP and the Builder's turn: `Uninit` to `Building`. -/
def beforeBuild : State := { at1 two .uninit with schedule := [.builder], readers := [waiting] }

theorem beforeBuild_inv : MachineInv beforeBuild := ⟨trivial, by decide, by decide, by decide⟩

theorem witness_StepKeepsInvariant :
    MachineInv beforeBuild ∧ ∃ t, step beforeBuild = .next t ∧ t.phase = .building :=
  ⟨beforeBuild_inv, _, rfl, rfl⟩

/-- Each clause of `OnlyLegalTransitionsOfInit`. -/
theorem witness_OnlyLegalTransitionsOfInit :
    (∃ t, step built = .next t ∧ t.phase = built.phase) ∧
    (∃ t, step beforeBuild = .next t ∧ t.phase = .building) ∧
    (∃ t, step (at1 two .building) = .next t ∧ t.phase = .ready (deriveIndex two)) ∧
    (∃ t, step (at1 bad .building) = .next t ∧ t.phase = .failed badInfo) ∧
    (∃ t, step { built with schedule := [.reset] } = .next t ∧ t.phase = .uninit) :=
  ⟨⟨_, rfl, rfl⟩, ⟨_, rfl, rfl⟩, ⟨_, rfl, rfl⟩, ⟨_, rfl, rfl⟩, ⟨_, rfl, rfl⟩⟩

theorem witness_RunsNeverChangeTheTable :
    ∃ t : State, Host.Core.run Sys2Proof.core 2 beforeBuild = .next t ∧ t.phase = .ready (deriveIndex two) :=
  ⟨_, rfl, rfl⟩

theorem witness_SettledPhaseNeverChanges :
    NoReset { built with schedule := [.builder] } ∧ built.phase.settled = true ∧
    ∃ t : State, Host.Core.run Sys2Proof.core 1 { built with schedule := [.builder] } = .next t :=
  ⟨by simp [NoReset], rfl, _, rfl⟩

theorem witness_ValidateReportsTheFirstOffendingRow :
    validate bad = .error badInfo ∧ validate [longLda] = .error ⟨.lengthModeMismatch, 0, 0xA9⟩ := by decide

theorem witness_MoreThan256RowsAlwaysFail : 256 < (List.replicate 257 rowNop).length := by
  rw [List.length_replicate]; decide

theorem witness_BuildFillsTheIndexExactly : validate (at1 two .building).spec = .ok := by decide

/-- Each clause of `BuilderTurnIsBuildStartOrBuildFinish`. -/
theorem witness_BuilderTurnIsBuildStartOrBuildFinish :
    (beforeBuild.schedule = [.builder] ∧ beforeBuild.phase = .uninit ∧ beforeBuild.triggered = true) ∧
    (at1 two .uninit).triggered = false ∧ validate two = .ok ∧ validate bad = .error badInfo ∧
    built.phase.settled = true := by
  refine ⟨⟨rfl, rfl, rfl⟩, rfl, by decide, by decide, rfl⟩

theorem witness_TriggersOfBuild :
    (at1 two .uninit).phase = .uninit ∧ waits (.lookup 0xA9) = true ∧ waits .ldaImm = true ∧
    (∃ t, exec (.lookup 0xA9) (at1 two .uninit) = .next t) ∧
    (∀ r ∈ (at1 two .uninit).readers, r.held = none) ∧ waits (.status 0) = false ∧
    ∃ t, exec (.status 0) (at1 two .uninit) = .next t :=
  ⟨rfl, rfl, rfl, ⟨_, rfl⟩, by decide, rfl, _, rfl⟩

theorem witness_EmptyTableBuildsAndMissesEverything :
    (at1 [] .building).spec = [] ∧ (at1 [] .building).phase = .building ∧ AtPort (at1 [] .building) Reader.fresh :=
  ⟨rfl, rfl, rfl⟩

/-- Two machines, one table, different policies and requests, both built. -/
theorem witness_BuildDependsOnTheTableAlone :
    MachineInv beforeBuild ∧ MachineInv { at1 two .uninit with policy := .eager } ∧
    ∃ t t' : State, Host.Core.run Sys2Proof.core 2 beforeBuild = .next t ∧
      Host.Core.run Sys2Proof.core 3 { at1 two .uninit with policy := .eager } = .next t' ∧
      t.phase.settled = true ∧ t'.phase.settled = true :=
  ⟨beforeBuild_inv, ⟨trivial, by decide, by decide, by decide⟩, _, _, rfl, rfl, rfl, rfl⟩

theorem witness_StatusIsAnsweredInEveryState :
    AtPort built Reader.fresh ∧ built.phase.initState ≠ .failed ∧
    AtPort (at1 bad (.failed badInfo)) Reader.fresh ∧ (at1 bad (.failed badInfo)).phase = .failed badInfo :=
  ⟨rfl, by decide, rfl, rfl⟩

theorem witness_LookupFollowsTheIndex :
    AtPort built Reader.fresh ∧ built.phase = .ready (deriveIndex two) ∧
    ((deriveIndex two)[(0xA9 : Byte).toNat]? = some (some 0) ∧ built.spec[0]? = some rowLdaImm) ∧
    (deriveIndex two)[(0xFF : Byte).toNat]? = some none ∧
    AtPort (at1 two .building) Reader.fresh ∧ (at1 two .building).phase.initState ≠ .ready :=
  ⟨rfl, rfl, ⟨built_index.1, rfl⟩, built_index.2, rfl, by decide⟩

theorem witness_LookupHitsExactlyTheRows :
    AtPort built Reader.fresh ∧ PhaseOk built.spec built.phase ∧ built.phase = .ready (deriveIndex two) ∧
    (rowBcc ∈ built.spec ∧ rowBcc.opcode = 0x90) ∧ ∀ d ∈ built.spec, d.opcode ≠ 0xFF :=
  ⟨rfl, built_ok, rfl, ⟨by decide, rfl⟩, by decide⟩

/-- The last row and the first index that is none, and index 255. -/
theorem witness_RowReadReturnsTheRow :
    AtPort built Reader.fresh ∧ built.spec[(1 : Byte).toNat]? = some rowBcc ∧
    built.spec.length ≤ (2 : Byte).toNat ∧ built.spec.length ≤ (255 : Byte).toNat ∧
    AtPort (at1 two .uninit) Reader.fresh ∧ (at1 two .uninit).phase.initState ≠ .ready :=
  ⟨rfl, rfl, by decide, by decide, rfl, by decide⟩

theorem witness_CountReturnsTheNumberOfRows :
    AtPort built Reader.fresh ∧ PhaseOk built.spec built.phase ∧ built.phase = .ready (deriveIndex two) ∧
    AtPort (at1 bad (.failed badInfo)) Reader.fresh ∧ (at1 bad (.failed badInfo)).phase.initState ≠ .ready :=
  ⟨rfl, built_ok, rfl, rfl, by decide⟩

theorem witness_BuildAgainOnlyReportsTheStatus :
    AtPort built Reader.fresh ∧ built.phase = .ready (deriveIndex two) ∧
    AtPort (at1 bad (.failed badInfo)) Reader.fresh ∧ (at1 bad (.failed badInfo)).phase = .failed badInfo :=
  ⟨rfl, rfl, rfl, rfl⟩

theorem witness_RequestsHoldUntilBuildHasEnded :
    waits (.build 0) = true ∧ waits .beq = true ∧ AtPort (at1 two .building) Reader.fresh ∧
    (at1 two .building).phase.settled = false ∧ (at1 two .uninit).phase.settled = false := ⟨rfl, rfl, rfl, rfl, rfl⟩

theorem witness_ReadsGetNoAnswerAfterFailure :
    reads (.count 0) = true ∧ reads .inx = true ∧ AtPort (at1 bad (.failed badInfo)) Reader.fresh ∧
    (at1 bad (.failed badInfo)).phase = .failed badInfo := ⟨rfl, rfl, rfl, rfl⟩

/-- A stuck LOOKUP, offered again. -/
theorem witness_StuckReadersStayStuck :
    NoReset { at1 bad (.failed badInfo) with readers := [waiting], schedule := [.reader 0] } ∧
    waiting.portOk = true ∧ waiting.stuck (.failed badInfo) = true ∧
    ∃ t : State, Host.Core.run Sys2Proof.core 1
      { at1 bad (.failed badInfo) with readers := [waiting], schedule := [.reader 0] } = .next t :=
  ⟨by simp [NoReset], rfl, rfl, _, rfl⟩

theorem witness_SequenceFaceAgreesWithLookup :
    AtPort built Reader.fresh ∧ PhaseOk built.spec built.phase ∧ Working built ∧ built.spec[1]? = some rowBcc ∧
    (allRequests built.spec.length)[0]? = some 0x400 ∧ (allRequests built.spec.length)[2]? = some 0x201 :=
  ⟨rfl, built_ok, built_working, rfl, rfl, rfl⟩

theorem witness_CommandsChangeOnlyTheirPort :
    isCommand (.rowRead 1) = true ∧ ∃ t r, exec (.rowRead 1) built = .next t ∧ AtPort built Reader.fresh ∧ AtPort t r :=
  ⟨rfl, _, _, rfl, rfl, rfl⟩

/-- A row that is no hit: `INX` is not in the table of two rows. -/
theorem witness_RomRowsChangeOnlyTheirEngine :
    isCommand .inx = false ∧ ∃ t r, exec .inx built = .next t ∧ AtPort built Reader.fresh ∧ AtPort t r ∧
      ∀ d, r.resp ≠ some (.hit d) :=
  ⟨rfl, _, { Reader.fresh with resp := some .miss }, rfl, rfl, rfl, by simp⟩

theorem witness_EveryInstructionGoesOnAtItsPort :
    built.active < built.readers.length ∧ ({ built with active := 1 } : State).readers.length ≤ 1 := by decide

/-- A present and an absent row. -/
theorem witness_RomRowsRunByTheTableInTheMachine :
    AtPort built Reader.fresh ∧ PhaseOk built.spec built.phase ∧ Working built ∧
    (encode .bcc = .opcode 0x90 ∧ rowBcc ∈ built.spec ∧ rowBcc.opcode = 0x90) ∧
    (encode .inx = .opcode 0xE8 ∧ ∀ d ∈ built.spec, d.opcode ≠ 0xE8) :=
  ⟨rfl, built_ok, built_working, ⟨rfl, by decide, rfl⟩, rfl, by decide⟩

/-- The hypotheses of the six family statements and of `WorkedLookupsOfTheSource`. -/
theorem witness_RowRuns :
    AtPort ready Reader.fresh ∧ ready.spec = defaultSpec ∧ PhaseOk ready.spec ready.phase ∧ Working ready :=
  ⟨rfl, rfl, ⟨default_valid, rfl⟩, _, rfl⟩

/-- The word `w` is on the list of port 0, whose turn it is. -/
def asking (w : ReqWord) (s : State) : State :=
  { s with readers := [{ Reader.fresh with todo := [w] }], schedule := [.reader 0] }

theorem witness_ReaderTurnRunsTheDecodedRequest :
    (asking 0x1A9 built).portsOpen = true ∧ (asking 0x1A9 built).schedule = [.reader 0] ∧
    (asking 0x1A9 built).readers[0]? = some { Reader.fresh with todo := [0x1A9] } ∧
    decode (.request 0x1A9) = .ok (.lookup 0xA9) := ⟨rfl, rfl, rfl, by decide⟩

/-- The engine of port 0, with its opcode byte in the stream. -/
def fetching (b : Byte) (s : State) : State :=
  { s with stream := Mem.write [] 0 b, schedule := [.engine 0 EngineIn.quiet] }

theorem witness_EngineTurnRunsTheDecodedOpcode :
    (fetching 0xE8 built).portsOpen = true ∧ (fetching 0xE8 built).schedule = [.engine 0 EngineIn.quiet] ∧
    (fetching 0xE8 built).readers[0]? = some Reader.fresh ∧ Reader.fresh.held = none ∧
    Mem.read (fetching 0xE8 built).stream Reader.fresh.pc = some 0xE8 ∧ decode (.opcode 0xE8) = .ok .inx :=
  ⟨rfl, rfl, rfl, rfl, by decide, by decide⟩

/-- A table with a row for `0x02`, a byte the default map does not hold. -/
def unofficial : List Descriptor := [row 0x02 .nop 1 2 .implicit]

/-- A port whose engine holds `b` out. -/
def waitingByte (b : Byte) : Reader := { Reader.fresh with held := some (.opcode b) }

/-- A request word and a byte outside the default map, held out, in a turn of the Reader and in one of the engine. -/
theorem witness_HeldRequestIsOfferedAgain :
    (∃ s : State, s.portsOpen = true ∧ s.readers[0]? = some waiting ∧ s.schedule = [.reader 0]) ∧
    waiting.held = some (.request 0x1A9) ∧ decode (.request 0x1A9) = .ok (.lookup 0xA9) ∧
    (∃ s : State, s.portsOpen = true ∧ s.readers[0]? = some (waitingByte 0x02) ∧
      s.schedule = [.engine 0 ⟨0, 0, none, some 3⟩] ∧ PhaseOk s.spec s.phase ∧ Working s ∧
      row 0x02 .nop 1 2 .implicit ∈ s.spec) ∧
    (waitingByte 0x02).held = some (.opcode 0x02) ∧ decode (.opcode 0x02) = .error (.absentOpcode 0x02) :=
  ⟨⟨{ built with readers := [waiting], schedule := [.reader 0] }, rfl, rfl, rfl⟩, rfl, by decide,
    ⟨{ at1 unofficial (.ready (deriveIndex unofficial)) with
        readers := [waitingByte 0x02], schedule := [.engine 0 ⟨0, 0, none, some 3⟩] },
      rfl, rfl, rfl, ⟨by decide, rfl⟩, ⟨_, rfl⟩, by decide⟩, rfl, by decide⟩

/-- The byte `0x02`, outside the default map: absent, present, and before and after a failed BUILD. -/
theorem witness_AbsentOpcodeByteIsAMissAndNoError :
    (∀ s : State, (fetching 0x02 s).schedule = [.engine 0 EngineIn.quiet]) ∧
    Mem.read (Mem.write [] 0 0x02) Reader.fresh.pc = some 0x02 ∧ Reader.fresh.held = none ∧
    (∀ spec, ∀ p : Phase, (at1 spec p).portsOpen = true ∧ (at1 spec p).readers[0]? = some Reader.fresh) ∧
    (PhaseOk built.spec built.phase ∧ Working built ∧ ∀ d ∈ built.spec, d.opcode ≠ 0x02) ∧
    (PhaseOk unofficial (.ready (deriveIndex unofficial)) ∧ row 0x02 .nop 1 2 .implicit ∈ unofficial) ∧
    (PhaseOk two .uninit ∧ PhaseOk two .building ∧ PhaseOk bad (.failed badInfo)) :=
  ⟨fun _ => rfl, by decide, rfl, fun _ _ => ⟨rfl, rfl⟩, ⟨built_ok, built_working, by decide⟩,
    ⟨⟨by decide, rfl⟩, by decide⟩, trivial, trivial,
    show validate bad = .error badInfo by decide⟩

/-- A byte outside the default map that the table holds is a hit, charged and moved by its row (20_memory.md R44). -/
theorem test_unmapped_byte_present :
    outcome (fetching 0x02 (at1 unofficial (.ready (deriveIndex unofficial)))) =
      some (.ready, [{ Reader.fresh with resp := some (.hit (row 0x02 .nop 1 2 .implicit)), pc := 1, cycles := 2 }]) := by
  decide +kernel

theorem witness_EagerBuildsBeforeAnyRequest :
    ∃ s : State, s.policy = .eager ∧ s.phase = .uninit ∧ s.schedule = [.reader 0] ∧
      ∀ u ∈ s.schedule.head?, ∃ p e, u = Turn.reader p ∨ u = Turn.engine p e :=
  ⟨{ at1 two .uninit with policy := .eager, schedule := [.reader 0] }, rfl, rfl, rfl,
    fun u hu => ⟨0, EngineIn.quiet, .inl (by simpa using hu.symm)⟩⟩

theorem witness_BuildingEndsInOneBuilderStep :
    (at1 two .building).phase = .building ∧ (at1 two .building).schedule.head? = none ∧
    ({ at1 two .building with schedule := [.builder] } : State).schedule.head? = some .builder := ⟨rfl, rfl, rfl⟩

/-- Two ports hold; the second is answered second. -/
theorem witness_HeldRequestsAreAnsweredOnceReady :
    ∃ s : State, s.schedule = [] ∧ Working s ∧ s.readers[1]? = some waiting ∧ waiting.held.isSome = true ∧
      s.readers.length = 2 :=
  ⟨{ built with readers := [waiting, waiting] }, rfl, ⟨_, rfl⟩, rfl, rfl, rfl⟩

/-- For `FirstLookupBuildsTheTableAndIsAnswered` and `ExplicitBuildBuildsAndReportsTheStatus`: a table that builds, with a byte
it holds and one it does not, and one that does not build. -/
theorem witness_FirstRequest :
    (∀ spec, ∀ w ∈ [0b001#3 ++ 0xA9#8, 0b001#3 ++ 0xFF#8, 0b011#3 ++ 0x00#8],
      ∃ s : State, s.spec = spec ∧ s.policy = .lazy ∧ s.phase = .uninit ∧
        s.readers[0]? = some { Reader.fresh with todo := [w] } ∧
        s.schedule = .reader 0 :: .builder :: .builder :: .reader 0 :: []) ∧
    (SpecValid two ∧ (rowLdaImm ∈ two ∧ rowLdaImm.opcode = 0xA9) ∧ ∀ d ∈ two, d.opcode ≠ 0xFF) ∧
    validate bad = .error badInfo :=
  ⟨fun spec w _ => ⟨{ asking w (at1 spec .uninit) with schedule := [.reader 0, .builder, .builder, .reader 0] },
      rfl, rfl, rfl, rfl, rfl⟩,
    ⟨two_valid, ⟨by decide, rfl⟩, by decide⟩, by decide⟩

/-- The same record on port 0 of one port and on port 1 of two. -/
theorem witness_OtherPortsDoNotMatter :
    ∃ s s' : State, AtPort s Reader.fresh ∧ AtPort s' Reader.fresh ∧ s.spec = s'.spec ∧ s.phase = s'.phase ∧
      s.active ≠ s'.active :=
  ⟨built, { built with readers := [waiting, Reader.fresh], active := 1 }, rfl, rfl, rfl, rfl, by decide⟩

theorem witness_TurnsOfTwoReadersCommute :
    ∃ s : State, s.phase.settled = true ∧ (0 : Nat) ≠ 1 ∧ 0 < s.readers.length ∧ 1 < s.readers.length :=
  ⟨{ built with readers := [waiting, Reader.fresh] }, rfl, by decide, by decide, by decide⟩

theorem witness_DecodeOfEncode : (Instr.reserved 0b111 0xFF).wf = true ∧ Instr.staIndY.wf = true := by decide

theorem witness_EncodeOfDecode :
    decode (.request 0x7FF) = .ok (.reserved 0b111 0xFF) ∧ decode (.opcode 0x00) = .ok .brk := by decide

/-- The longest length and charge a word holds, and a length of 0. -/
theorem witness_PackLosesNothing :
    (∃ w, pack (row 0xFF .sta 3 15 .relative) = some w) ∧ (1 ≤ (row 0xFF .sta 3 15 .relative).length) ∧
    ∃ w, pack (row 0x00 .brk 0 0 .implicit) = some w := ⟨⟨_, rfl⟩, by decide, _, rfl⟩

theorem witness_OnlyPackedWordsUnpack : unpack 0x2A60888 = some rowLdaImm := by decide

theorem witness_ResponsesHaveTheirBitForm :
    255 < 256 ∧ 255 ≤ 255 ∧ 256 ≤ 256 ∧
    (Response.status .failed (some ⟨.lengthModeMismatch, 255, 0⟩)).data = some 0x0000FF7 ∧ InitState.ready ≠ .failed := by decide

theorem witness_LengthIsOneMoreThanTheOperandBytes : 12 ≤ (0xC : BitVec 4).toNat ∧ 12 ≤ (0xF : BitVec 4).toNat := by decide

theorem witness_InstructionOccupiesItsLength :
    1 ≤ rowBcc.length ∧ EngineIn.quiet.transfer = none ∧
    (⟨0, 0, some 0x1100, none⟩ : EngineIn).transfer = some 0x1100 := by decide

/-- Each clause of `MarkersAddTheirPenalties`, the first address of a page and the last one included. -/
theorem witness_MarkersAddTheirPenalties :
    (rowLdaAbsX.penalty.p = true ∧ (0x1300 : Addr).toNat / 256 ≠ (0x12FF : Addr).toNat / 256) ∧
    rowStaAbsX.penalty.p = false ∧ (0x12FF : Addr).toNat / 256 = (0x1200 : Addr).toNat / 256 ∧
    rowStaAbsX.penalty.b = false ∧ EngineIn.quiet.transfer = none ∧
    (rowBeq.penalty.b = true ∧ (0x10FF : Addr).toNat / 256 = ((0x10FD : Addr) + 2).toNat / 256) ∧
    (0x1100 : Addr).toNat / 256 ≠ ((0x10FD : Addr) + 2).toNat / 256 := by decide

theorem witness_ChargeIsBaseCyclesAndPenalties :
    ¬(rowLdaAbsX.penalty.p = true ∧ rowLdaAbsX.penalty.b = true) ∧ rowStaZp.penalty = ⟨false, false⟩ := by decide

end Sys2Proof.Tests
end

section
/-! PROOFS. A code offered at a port: how the table answers an opcode byte, whichever turn hands it over, and the proof of
`HeldRequestIsOfferedAgain`. -/

namespace Sys2Proof.Proofs

open Sys2Proof.Machine Sys2Proof.Claims

/-! ### The statements' words for the acting port -/

theorem setActive_eq_withReader (s : State) (r : Reader) : setActive s r = withReader s r := rfl

theorem holding_eq_heldOut (c : Code) (r : Reader) : r.holding c = heldOut r c := rfl

theorem missed_eq_claimsMissed (r : Reader) : r.missed = Claims.missed r := rfl

/-- 47_penalty_rules.md R224: the address pair crosses a page whichever of the two is named first. -/
theorem penaltyP_eq (d : Descriptor) (e : EngineIn) :
    penaltyP d e = if d.penalty.p = true ∧ e.baseAddr.toNat / 256 ≠ e.effAddr.toNat / 256 then 1 else 0 := by
  simp only [penaltyP, crossed, page, Bool.and_eq_true, bne_iff_ne, ne_comm (a := e.baseAddr.toNat / 256)]

/-- 47_penalty_rules.md R226: the engine charges what the row's markers say. -/
theorem cyclesCharged_eq_rowCharge (d : Descriptor) (pc : Addr) (e : EngineIn) :
    cyclesCharged d pc e = rowCharge d pc e := by
  unfold cyclesCharged rowCharge penaltyB
  rw [penaltyP_eq]
  cases d.penalty.b <;> cases e.transfer <;> rfl

theorem consume_eq_consumed (d : Descriptor) (r : Reader) :
    r.consume d = consumed r d (rowCharge d r.pc r.engine) := by
  rw [← cyclesCharged_eq_rowCharge]
  rfl

/-! ### The index of a valid table -/

/-- 20_memory.md R40: on a valid table the derived index reads each row by its opcode. -/
theorem romRead_deriveIndex_of_mem (spec : List Descriptor) (d : Descriptor) (hv : SpecValid spec) (hd : d ∈ spec) :
    romRead spec (deriveIndex spec) d.opcode = .present d := by
  obtain ⟨k, hk⟩ := List.mem_iff_getElem?.1 hd
  have hidx : (deriveIndex spec)[d.opcode.toNat]? = some (some k) := by
    simpa only [deriveIndex, Nat.zero_add] using
      (fillIndex_get spec 0 _ d.opcode List.length_replicate hv.2).1 k d hk rfl
  simp [romRead, List.getD_eq_getElem?_getD, hidx, hk]

/-- 20_memory.md R40: on a valid table a byte that is no row's opcode is absent. -/
theorem romRead_deriveIndex_of_absent (spec : List Descriptor) (b : Byte) (hv : SpecValid spec)
    (hb : ∀ d ∈ spec, d.opcode ≠ b) : romRead spec (deriveIndex spec) b = .absent := by
  have hidx : (deriveIndex spec)[b.toNat]? = some none := by
    rw [deriveIndex, (fillIndex_get spec 0 _ b List.length_replicate hv.2).2 hb]
    exact List.getElem?_replicate_of_lt b.isLt
  simp [romRead, List.getD_eq_getElem?_getD, hidx]

/-! ### An opcode byte goes by the table -/

theorem opcodeEffect_of_not_ready (spec : List Descriptor) (p : Phase) (b : Byte) (h : p.initState ≠ .ready) :
    opcodeEffect spec p b = Reader.holding (.opcode b) := by
  cases p with
  | ready idx => exact absurd rfl h
  | _ => rfl

theorem presentOpcode_of_port (b : Byte) (s : State) (r : Reader) (h : AtPort s r) :
    presentOpcode b s = .next (withReader s (opcodeEffect s.spec s.phase b r)) := by
  rw [presentOpcode_eq, onActive_of_port _ s r h, setActive_eq_withReader]

/-- 20_memory.md R44, 41_lookup.md R102 to R104: what comes of presenting a byte at a port, in every phase. -/
theorem presentOpcode_goesByTheTable (b : Byte) (s : State) (r : Reader) (h : AtPort s r)
    (hok : PhaseOk s.spec s.phase) : GoesByTheTable (presentOpcode b s) s r b := by
  rw [presentOpcode_of_port b s r h]
  refine ⟨?hit, ?miss, ?held⟩
  case hit =>
    rintro ⟨idx, hp⟩ d hd rfl
    obtain ⟨hv, rfl⟩ : SpecValid s.spec ∧ idx = deriveIndex s.spec := by rwa [hp] at hok
    simp only [hp, opcodeEffect, romRead_deriveIndex_of_mem s.spec d hv hd, consume_eq_consumed]
  case miss =>
    rintro ⟨idx, hp⟩ hb
    obtain ⟨hv, rfl⟩ : SpecValid s.spec ∧ idx = deriveIndex s.spec := by rwa [hp] at hok
    simp only [hp, opcodeEffect, romRead_deriveIndex_of_absent s.spec b hv hb, missed_eq_claimsMissed]
  case held =>
    intro hp
    rw [opcodeEffect_of_not_ready _ _ _ hp, holding_eq_heldOut]

/-! ### A code that is run -/

theorem runCode_of_decode (c : Code) (i : Instr) (s : State) (h : decode c = .ok i) : runCode c s = exec i s := by
  simp only [runCode, h]

theorem encode_of_mem_opcodeMap : ∀ e ∈ opcodeMap, encode e.2 = .opcode e.1 := by decide

/-- The default map decodes an opcode byte only to the instruction that byte encodes. -/
theorem encode_of_decodeOpcode (b : Byte) (i : Instr) (h : decodeOpcode b = .ok i) : encode i = .opcode b := by
  unfold decodeOpcode at h
  cases hl : opcodeMap.lookup b with
  | none => simp [hl] at h
  | some j =>
    obtain rfl : j = i := by simpa [hl] using h
    obtain ⟨pre, post, hmap, -⟩ := List.lookup_eq_some_iff.1 hl
    exact encode_of_mem_opcodeMap (b, j) (by simp [hmap])

/-- A byte the default map does not hold is the only reason why a code decodes to nothing. -/
theorem decodeOpcode_error (b : Byte) (e : DecodeError) (h : decodeOpcode b = .error e) : e = .absentOpcode b := by
  unfold decodeOpcode at h
  cases hl : opcodeMap.lookup b with
  | none => simpa [hl] using h.symm
  | some j => simp [hl] at h

theorem exec_of_encode_opcode (i : Instr) (b : Byte) (s : State) (h : encode i = .opcode b) :
    exec i s = presentOpcode b s := by
  rw [exec_eq, presentOpcode_eq, codeEffect_opcode _ _ b i h]

/-- 30_encoding.md R72: an opcode byte is looked up, whether the default map holds it or not. -/
theorem runCode_opcode (b : Byte) (s : State) : runCode (.opcode b) s = presentOpcode b s := by
  cases hd : decodeOpcode b with
  | ok i => rw [runCode_of_decode (.opcode b) i s hd, exec_of_encode_opcode i b s (encode_of_decodeOpcode b i hd)]
  | error e =>
    obtain rfl := decodeOpcode_error b e hd
    simp only [runCode, decode, hd]

/-- A code run at a port is that code offered there. -/
theorem runCode_offersAgain (c : Code) (s : State) (r : Reader) (h : AtPort s r) : OffersAgain (runCode c s) s r c := by
  refine ⟨fun i hi => runCode_of_decode c i s hi, ?_⟩
  rintro b rfl hok
  rw [runCode_opcode]
  exact presentOpcode_goesByTheTable b s r h hok

/-! ### The step of a scheduled turn -/

theorem step_reader (s : State) (p : Nat) (rest : List Turn) (ho : s.portsOpen = true)
    (hs : s.schedule = .reader p :: rest) : step s = readerTurn p { s with schedule := rest } := by
  simp only [step, takeTurn, hs, gated_open _ _ _ ho]

theorem step_engine (s : State) (p : Nat) (e : EngineIn) (rest : List Turn) (ho : s.portsOpen = true)
    (hs : s.schedule = .engine p e :: rest) : step s = engineTurn p e { s with schedule := rest } := by
  simp only [step, takeTurn, hs, gated_open _ _ _ ho]

/-- 41_lookup.md R103: a Reader that holds a code out is offered it again. -/
theorem readerTurn_of_held (p : Nat) (s : State) (r : Reader) (c : Code) (hr : s.readers[p]? = some r)
    (hh : r.held = some c) : readerTurn p s = runCode c { s with active := p } := by
  simp only [readerTurn, hr, hh]

/-- 41_lookup.md R103: an engine whose port holds a code out is offered that code, with the values of its new turn. -/
theorem engineTurn_of_held (p : Nat) (e : EngineIn) (s : State) (r : Reader) (c : Code) (hr : s.readers[p]? = some r)
    (hh : r.held = some c) :
    engineTurn p e s =
      runCode c { s with active := p, readers := s.readers.set p { r with engine := e } } := by
  simp only [engineTurn, hr, hh]

/-- The record an engine's turn puts on an existing port is the acting port's. -/
theorem atPort_set (s : State) (p : Nat) (r r' : Reader) (hr : s.readers[p]? = some r) :
    AtPort { s with active := p, readers := s.readers.set p r' } r' :=
  setActive_self { s with active := p } r' r hr

/-- Settles O41: both turns run the held code at the port, and a code run at a port is that code offered there. -/
theorem heldRequestIsOfferedAgain : Obligations.HeldRequestIsOfferedAgain := by
  intro s p r c rest ho hr hh
  constructor
  · intro hs
    rw [step_reader s p rest ho hs, readerTurn_of_held p { s with schedule := rest } r c hr hh]
    exact runCode_offersAgain c _ r hr
  · intro e hs
    rw [step_engine s p e rest ho hs, engineTurn_of_held p e { s with schedule := rest } r c hr hh]
    exact runCode_offersAgain c _ _ (atPort_set { s with schedule := rest } p r _ hr)

end Sys2Proof.Proofs
end

section
/-! PROOFS. What a code can do to the record of the port that presents it, said once: it is answered, consumed or missed,
or the code is held out; and the proof of `CommandsChangeOnlyTheirPort`. -/

namespace Sys2Proof.Proofs

open Sys2Proof.Machine Sys2Proof.Claims

@[simp] theorem answered_engine (x : Response) (r : Reader) : (r.answered x).engine = r.engine := rfl
@[simp] theorem holding_engine (c : Code) (r : Reader) : (r.holding c).engine = r.engine := rfl

/-! ### The effect of a code on a record -/

theorem readEffect_cases (p : Phase) (c : Code) (read : Index → Response) (r : Reader) :
    (∃ x, readEffect p c read r = r.answered x) ∨ readEffect p c read r = r.holding c := by
  cases p with
  | ready idx => exact .inl ⟨read idx, rfl⟩
  | _ => exact .inr rfl

theorem opcodeEffect_cases (spec : List Descriptor) (p : Phase) (b : Byte) (r : Reader) :
    (∃ d, opcodeEffect spec p b r = r.consume d) ∨ opcodeEffect spec p b r = r.missed ∨
      opcodeEffect spec p b r = r.holding (.opcode b) := by
  cases p with
  | ready idx =>
    cases h : romRead spec idx b with
    | present d => exact .inl ⟨d, by simp only [opcodeEffect, h]⟩
    | absent => exact .inr (.inl (by simp only [opcodeEffect, h]))
  | _ => exact .inr (.inr rfl)

theorem buildEffect_cases (spec : List Descriptor) (p : Phase) (x : Byte) (r : Reader) :
    (∃ y, portEffect spec p (.build x) r = r.answered y) ∨
      portEffect spec p (.build x) r = r.holding (encode (.build x)) := by
  cases h : p.settled with
  | true => exact .inl ⟨statusResponse p, by simp only [portEffect, h, if_true]⟩
  | false => exact .inr (by simp [portEffect, h])

/-- A command answers the port or holds its code out there; only a command that waits for BUILD is held out. -/
theorem portEffect_of_command (spec : List Descriptor) (p : Phase) (i : Instr) (r : Reader) (hc : isCommand i = true) :
    (∃ x, portEffect spec p i r = r.answered x) ∨
      waits i = true ∧ portEffect spec p i r = r.holding (encode i) := by
  cases i
  case idle => exact .inl ⟨_, rfl⟩
  case status => exact .inl ⟨_, rfl⟩
  case reserved => exact .inl ⟨_, rfl⟩
  case lookup b => exact (readEffect_cases p _ _ r).imp_right (⟨rfl, ·⟩)
  case rowRead k => exact (readEffect_cases p _ _ r).imp_right (⟨rfl, ·⟩)
  case count x => exact (readEffect_cases p _ _ r).imp_right (⟨rfl, ·⟩)
  case build x => exact (buildEffect_cases spec p x r).imp_right (⟨rfl, ·⟩)
  all_goals cases hc

/-- An instruction that is no command is encoded by an opcode byte. -/
theorem encode_of_not_command (i : Instr) (h : isCommand i = false) : ∃ b, encode i = .opcode b := by
  cases he : encode i with
  | opcode b => exact ⟨b, rfl⟩
  | request w => simp [isCommand, he] at h

theorem waits_of_encode_opcode (i : Instr) (b : Byte) (h : encode i = .opcode b) : waits i = true := by
  cases i
  case idle => cases h
  case status => cases h
  case reserved => cases h
  all_goals rfl

/-- Everything an instruction can do to the record of its port. -/
theorem portEffect_cases (spec : List Descriptor) (p : Phase) (i : Instr) (r : Reader) :
    (isCommand i = true ∧ ∃ x, portEffect spec p i r = r.answered x) ∨
    (isCommand i = false ∧ ∃ d, portEffect spec p i r = r.consume d) ∨
    (isCommand i = false ∧ portEffect spec p i r = r.missed) ∨
    (waits i = true ∧ portEffect spec p i r = r.holding (encode i)) := by
  cases hc : isCommand i with
  | true =>
    rcases portEffect_of_command spec p i r hc with hx | hh
    · exact .inl ⟨rfl, hx⟩
    · exact .inr (.inr (.inr hh))
  | false =>
    obtain ⟨b, hb⟩ := encode_of_not_command i hc
    rw [codeEffect_opcode spec p b i hb, hb]
    rcases opcodeEffect_cases spec p b r with hd | hm | hh
    · exact .inr (.inl ⟨rfl, hd⟩)
    · exact .inr (.inr (.inl ⟨rfl, hm⟩))
    · exact .inr (.inr (.inr ⟨waits_of_encode_opcode i b hb, hh⟩))

/-! ### What it leaves alone -/

@[simp] theorem portEffect_todo (spec : List Descriptor) (p : Phase) (i : Instr) (r : Reader) :
    (portEffect spec p i r).todo = r.todo := by
  rcases portEffect_cases spec p i r with ⟨-, x, h⟩ | ⟨-, d, h⟩ | ⟨-, h⟩ | ⟨-, h⟩ <;> simp [h]

@[simp] theorem portEffect_engine (spec : List Descriptor) (p : Phase) (i : Instr) (r : Reader) :
    (portEffect spec p i r).engine = r.engine := by
  rcases portEffect_cases spec p i r with ⟨-, x, h⟩ | ⟨-, d, h⟩ | ⟨-, h⟩ | ⟨-, h⟩ <;> simp [h]

/-- 47_penalty_rules.md R221: a command neither moves the engine nor charges it. -/
theorem portEffect_pc_cycles_of_command (spec : List Descriptor) (p : Phase) (i : Instr) (r : Reader)
    (hc : isCommand i = true) :
    (portEffect spec p i r).pc = r.pc ∧ (portEffect spec p i r).cycles = r.cycles := by
  rcases portEffect_of_command spec p i r hc with ⟨x, h⟩ | ⟨-, h⟩ <;> simp [h]

theorem atPort_unique (s : State) (r r' : Reader) (h : AtPort s r) (h' : AtPort s r') : r' = r :=
  Option.some.inj (h'.symm.trans h)

/-- If an instruction goes on, the acting port's record went by its effect. -/
theorem atPort_of_exec_next (i : Instr) (s t : State) (r r' : Reader) (h : exec i s = .next t) (hr : AtPort s r)
    (hr' : AtPort t r') : r' = portEffect s.spec s.phase i r := by
  obtain ⟨r₀, h₀, rfl⟩ := exec_next i s t h
  obtain rfl := atPort_unique s r r₀ hr h₀
  exact atPort_unique _ _ _ (setActive_self s _ r₀ h₀) hr'

/-- 10_state.md R20, R21: the frame of every instruction. -/
theorem exec_portFrame (i : Instr) (s t : State) (h : exec i s = .next t) : PortFrame s t := by
  have hport : ∀ r r', AtPort s r → AtPort t r' → r'.todo = r.todo ∧ r'.engine = r.engine := by
    intro r r' hr hr'
    simp [atPort_of_exec_next i s t r r' h hr hr']
  obtain ⟨r, -, rfl⟩ := exec_next i s t h
  exact ⟨rfl, rfl, rfl, rfl, rfl, fun _ => rfl, List.length_set, setActive_other s _, hport⟩

/-- Settles O27: the frame of every instruction, and a command's answer or hold keeps the address and the charge. -/
theorem commandsChangeOnlyTheirPort : Obligations.CommandsChangeOnlyTheirPort := by
  intro i s t hc h
  refine ⟨exec_portFrame i s t h, fun r r' hr hr' => ?_⟩
  rw [atPort_of_exec_next i s t r r' h hr hr']
  exact portEffect_pc_cycles_of_command s.spec s.phase i r hc

end Sys2Proof.Proofs
end

section
/-! PROOFS. Only a request that waits for BUILD is ever held out: every code leaves the port that presents it in order. -/

namespace Sys2Proof.Proofs

open Sys2Proof.Machine Sys2Proof.Claims

/-! ### The fields of a request word -/

@[simp] theorem requestWord_code (c : BitVec 3) (x : Byte) : (requestWord c x).extractLsb' 8 3 = c :=
  BitVec.extractLsb'_append_eq_left

@[simp] theorem requestWord_arg (c : BitVec 3) (x : Byte) : (requestWord c x).extractLsb' 0 8 = x :=
  BitVec.extractLsb'_append_eq_right

/-! ### The codes that may be held out -/

theorem holdable_of_decode (c : Code) (i : Instr) (h : decode c = .ok i) : holdable c = waits i := by
  unfold holdable
  rw [h]
  cases i <;> rfl

/-- 41_lookup.md R103: an opcode byte waits for BUILD, whether the default map holds it or not. -/
theorem holdable_opcode (b : Byte) : holdable (.opcode b) = true := by
  cases hd : decodeOpcode b with
  | ok i => rw [holdable_of_decode (.opcode b) i hd, waits_of_encode_opcode i b (encode_of_decodeOpcode b i hd)]
  | error e => simp only [holdable, decode, hd]

theorem decode_encode_of_waiting_command (i : Instr) (hc : isCommand i = true) (hw : waits i = true) :
    decode (encode i) = .ok i := by
  cases i
  case lookup b => simp [encode, decode, decodeRequest]
  case rowRead k => simp [encode, decode, decodeRequest]
  case build x => simp [encode, decode, decodeRequest]
  case count x => simp [encode, decode, decodeRequest]
  case idle => cases hw
  case status => cases hw
  case reserved => cases hw
  all_goals cases hc

/-- The code of an instruction that waits for BUILD may be held out. -/
theorem holdable_encode (i : Instr) (hw : waits i = true) : holdable (encode i) = true := by
  cases hc : isCommand i with
  | true => rw [holdable_of_decode _ i (decode_encode_of_waiting_command i hc hw), hw]
  | false =>
    obtain ⟨b, hb⟩ := encode_of_not_command i hc
    rw [hb, holdable_opcode]

/-! ### A port is in order after every code -/

theorem portOk_of_not_held (r : Reader) (h : r.held = none) : r.portOk = true := by
  simp only [Reader.portOk, h]

theorem portOk_holding (c : Code) (r : Reader) (h : holdable c = true) : (r.holding c).portOk = true := by
  simp [Reader.portOk, h]

theorem opcodeEffect_portOk (spec : List Descriptor) (p : Phase) (b : Byte) (r : Reader) :
    (opcodeEffect spec p b r).portOk = true := by
  rcases opcodeEffect_cases spec p b r with ⟨d, h⟩ | h | h <;> rw [h]
  · exact portOk_of_not_held _ rfl
  · exact portOk_of_not_held _ rfl
  · exact portOk_holding _ r (holdable_opcode b)

theorem portEffect_portOk (spec : List Descriptor) (p : Phase) (i : Instr) (r : Reader) :
    (portEffect spec p i r).portOk = true := by
  rcases portEffect_cases spec p i r with ⟨-, x, h⟩ | ⟨-, d, h⟩ | ⟨-, h⟩ | ⟨hw, h⟩ <;> rw [h]
  · exact portOk_of_not_held _ rfl
  · exact portOk_of_not_held _ rfl
  · exact portOk_of_not_held _ rfl
  · exact portOk_holding _ r (holdable_encode i hw)

/-- 41_lookup.md R103: whatever the port's record was, running a code leaves it in order. -/
theorem codeEffect_portOk (spec : List Descriptor) (p : Phase) (c : Code) (r : Reader) :
    (codeEffect spec p c r).portOk = true := by
  unfold codeEffect
  cases decode c with
  | ok i => exact portEffect_portOk spec p i r
  | error e => exact opcodeEffect_portOk spec p e.1 r

/-- A Reader's turn keeps its record in order, even one with nothing to present. -/
theorem turnEffect_portOk (spec : List Descriptor) (p : Phase) (r : Reader) (h : r.portOk = true) :
    (turnEffect spec p r).portOk = true := by
  cases hh : r.held with
  | some c => simpa only [turnEffect, hh] using codeEffect_portOk spec p c r
  | none =>
    cases ht : r.todo with
    | nil => simpa only [turnEffect, hh, ht] using h
    | cons w ws => simpa only [turnEffect, hh, ht] using codeEffect_portOk spec p (.request w) _

end Sys2Proof.Proofs
end

section
/-! PROOFS. What every step keeps: the machine invariant, the table and the stream, and `INIT` but for its legal
transitions; along runs by one induction. -/

namespace Sys2Proof.Proofs

open Sys2Proof.Machine Sys2Proof.Claims

/-! ### The step, with the turns of Readers and engines taken together -/

/-- The state after a turn on port `p` that left the schedule `rest` and the record `x`. -/
def afterTurn (s : State) (p : Nat) (rest : List Turn) (x : Reader) : State :=
  { s with schedule := rest, active := p, readers := s.readers.set p x }

/-- Everything a step can do when it goes on: the Builder's step, a reset, nothing, or a turn that touches one port only and
leaves its record in order if it was. -/
theorem step_next (s t : State) (h : step s = .next t) :
    (∃ rest, rest <:+ s.schedule ∧ t = builderStep { s with schedule := rest }) ∨
    (∃ rest, s.schedule = .reset :: rest ∧ t = reboot { s with schedule := rest }) ∨
    t = s ∨
    (∃ p rest r x, rest <:+ s.schedule ∧ s.readers[p]? = some r ∧ (r.portOk = true → x.portOk = true) ∧
      t = afterTurn s p rest x) := by
  rcases step_cases s t h with hb | hr | ⟨-, he⟩ | ⟨p, rest, hsuf, -, ht⟩ | ⟨p, e, rest, hsuf, -, ht⟩
  · exact .inl hb
  · exact .inr (.inl hr)
  · exact .inr (.inr (.inl he))
  · obtain ⟨r, hr, -⟩ := readerTurn_next p _ t ht
    rw [readerTurn_of_port p _ r hr] at ht
    cases ht
    exact .inr (.inr (.inr ⟨p, rest, r, _, hsuf, hr, turnEffect_portOk s.spec s.phase r, rfl⟩))
  · obtain ⟨r, c, hr, -, rfl⟩ := engineTurn_next p e _ t ht
    exact .inr (.inr (.inr ⟨p, rest, r, _, hsuf, hr, fun _ => codeEffect_portOk s.spec s.phase c _, rfl⟩))

/-! ### The machine invariant -/

/-- 10_state.md R33: the registers are right after the Builder's step. -/
theorem builderStep_phaseOk (s : State) (h : PhaseOk s.spec s.phase) :
    PhaseOk s.spec (builderStep s).phase := by
  rcases builderStep_cases s with hb | ⟨-, -, hb⟩ | ⟨-, hv, hb⟩ | ⟨info, -, hv, hb⟩ <;> rw [hb]
  · exact h
  · trivial
  · obtain ⟨hlen, -, hnodup⟩ := (validateFrom_ok s.spec 0 []).1 hv
    exact ⟨⟨hlen, hnodup⟩, rfl⟩
  · exact hv

theorem builderStep_inv (s : State) (h : MachineInv s) : MachineInv (builderStep s) where
  phase := by simpa using builderStep_phaseOk s h.phase
  ports := by simpa using h.ports
  nonempty := by simpa using h.nonempty
  stream := by simpa using h.stream

/-- 70_reset_and_hazards.md R270: a reset abandons every held request. -/
theorem reboot_inv (s : State) (h : MachineInv s) : MachineInv (reboot s) where
  phase := trivial
  ports := by
    intro r hr
    obtain ⟨r₀, -, rfl⟩ := List.mem_map.1 hr
    exact portOk_of_not_held _ rfl
  nonempty := by simpa using h.nonempty
  stream := h.stream

theorem afterTurn_inv (s : State) (p : Nat) (rest : List Turn) (x : Reader) (h : MachineInv s) (hx : x.portOk = true) :
    MachineInv (afterTurn s p rest x) where
  phase := h.phase
  ports := by
    intro r hr
    rcases List.mem_or_eq_of_mem_set hr with hr | rfl
    · exact h.ports r hr
    · exact hx
  nonempty := by simpa [afterTurn] using h.nonempty
  stream := h.stream

/-- The schedule is no part of the invariant. -/
theorem withSchedule_inv (s : State) (rest : List Turn) (h : MachineInv s) : MachineInv { s with schedule := rest } :=
  ⟨h.phase, h.ports, h.nonempty, h.stream⟩

/-- Settles O4: the Builder's step, a reset and a turn on one port each keep the invariant. -/
theorem stepKeepsInvariant : Obligations.StepKeepsInvariant := by
  intro s t h ht
  rcases step_next s t ht with ⟨rest, -, rfl⟩ | ⟨rest, -, rfl⟩ | rfl | ⟨p, rest, r, x, -, hr, hx, rfl⟩
  · exact builderStep_inv _ (withSchedule_inv s rest h)
  · exact reboot_inv _ (withSchedule_inv s rest h)
  · exact h
  · exact afterTurn_inv s p rest x h (hx (h.ports r (List.mem_of_getElem? hr)))

/-- Settles O3: nothing is held out, there is one port and the stream is empty. -/
theorem invariantHoldsAtReset : Obligations.InvariantHoldsAtReset where
  phase := trivial
  ports := by
    intro r hr
    obtain rfl := List.eq_of_mem_replicate hr
    exact portOk_of_not_held _ rfl
  nonempty := Nat.one_pos
  stream := reset_stream_wf

/-! ### `INIT` -/

/-- Settles O5: the Builder's step makes the transitions, a reset leads back, and a turn on a port leaves `INIT` alone. -/
theorem onlyLegalTransitionsOfInit : Obligations.OnlyLegalTransitionsOfInit := by
  intro s t ht
  rcases step_next s t ht with ⟨rest, -, rfl⟩ | ⟨rest, hs, rfl⟩ | rfl | ⟨p, rest, r, x, -, -, -, rfl⟩
  · rcases builderStep_cases { s with schedule := rest } with
      hb | ⟨hp, -, hb⟩ | ⟨hp, hv, hb⟩ | ⟨info, hp, hv, hb⟩ <;> rw [hb]
    · exact .inl rfl
    · exact .inr (.inl ⟨hp, rfl⟩)
    · exact .inr (.inr (.inl ⟨hp, hv, rfl⟩))
    · exact .inr (.inr (.inr (.inl ⟨info, hp, hv, rfl⟩)))
  · exact .inr (.inr (.inr (.inr ⟨by rw [hs]; rfl, rfl⟩)))
  · exact .inl rfl
  · exact .inl rfl

/-! ### What no step changes -/

/-- `t` has the table, the policy and the stream of `s`. -/
def SameTable (s t : State) : Prop := t.spec = s.spec ∧ t.policy = s.policy ∧ t.stream = s.stream

theorem sameTable_trans (s u t : State) (h : SameTable s u) (h' : SameTable u t) : SameTable s t := by
  obtain ⟨hspec, hpol, hstr⟩ := h
  obtain ⟨hspec', hpol', hstr'⟩ := h'
  exact ⟨hspec'.trans hspec, hpol'.trans hpol, hstr'.trans hstr⟩

/-- 10_state.md R26, 20_memory.md R52: no step changes the table, the policy or the stream. -/
theorem step_sameTable (s t : State) (h : step s = .next t) : SameTable s t := by
  rcases step_next s t h with ⟨rest, -, rfl⟩ | ⟨rest, -, rfl⟩ | rfl | ⟨p, rest, r, x, -, -, -, rfl⟩
  · exact ⟨builderStep_spec _, builderStep_policy _, builderStep_stream _⟩
  · exact ⟨rfl, rfl, rfl⟩
  · exact ⟨rfl, rfl, rfl⟩
  · exact ⟨rfl, rfl, rfl⟩

theorem step_schedule_suffix (s t : State) (h : step s = .next t) : t.schedule <:+ s.schedule := by
  rcases step_next s t h with ⟨rest, hsuf, rfl⟩ | ⟨rest, hs, rfl⟩ | rfl | ⟨p, rest, r, x, hsuf, -, -, rfl⟩
  · simpa using hsuf
  · simp [hs]
  · exact List.suffix_rfl
  · exact hsuf

theorem step_noReset (s t : State) (hn : NoReset s) (h : step s = .next t) : NoReset t :=
  fun u hu => hn u ((step_schedule_suffix s t h).subset hu)

/-- 10_state.md R33 item 4: where BUILD has ended, only a reset changes `INIT` or its register. -/
theorem step_settled_phase (s t : State) (hn : NoReset s) (hset : s.phase.settled = true) (h : step s = .next t) :
    t.phase = s.phase := by
  rcases onlyLegalTransitionsOfInit s t h with he | ⟨hp, -⟩ | ⟨hp, -, -⟩ | ⟨info, hp, -, -⟩ | ⟨hreset, -⟩
  · exact he
  · rw [hp] at hset; cases hset
  · rw [hp] at hset; cases hset
  · rw [hp] at hset; cases hset
  · exact absurd rfl (hn .reset (List.mem_of_head? hreset))

/-! ### Along runs -/

/-- What every step keeps holds at the end of every run. -/
theorem run_keeps (P : State → Prop) (hstep : ∀ s t, P s → step s = .next t → P t) (k : Nat) (s t : State) (hs : P s)
    (h : Host.Core.run Sys2Proof.core k s = .next t) : P t := by
  induction k generalizing s with
  | zero => cases h; exact hs
  | succ k ih =>
    obtain ⟨u, hu, ht⟩ := run_succ_next k s t h
    exact ih u (hstep s u hs hu) ht

/-- Settles O6: no step changes them, so no run does. -/
theorem runsNeverChangeTheTable : Obligations.RunsNeverChangeTheTable := by
  intro k s t h
  have hstep : ∀ u v, SameTable s u → step u = .next v → SameTable s v :=
    fun u v hu huv => sameTable_trans s u v hu (step_sameTable u v huv)
  obtain ⟨hspec, hpol, hstr⟩ := run_keeps (SameTable s) hstep k s t ⟨rfl, rfl, rfl⟩ h
  exact ⟨hspec, hpol, fun a => by rw [hstr]⟩

/-- No reset is scheduled in `u`, and its phase is the settled phase `p`. -/
def SettledIn (p : Phase) (u : State) : Prop := NoReset u ∧ u.phase = p ∧ p.settled = true

theorem step_settledIn (p : Phase) (u v : State) (hu : SettledIn p u) (h : step u = .next v) : SettledIn p v := by
  obtain ⟨hn, rfl, hset⟩ := hu
  exact ⟨step_noReset u v hn h, step_settled_phase u v hn hset h, hset⟩

/-- Settles O7: a step from a settled phase keeps it and schedules no reset. -/
theorem settledPhaseNeverChanges : Obligations.SettledPhaseNeverChanges := by
  intro k s t hn hset h
  obtain ⟨-, hp, -⟩ := run_keeps (SettledIn s.phase) (step_settledIn s.phase) k s t ⟨hn, rfl, hset⟩ h
  exact hp

/-! ### Reset and the ports under each policy -/

/-- 40_construct.md R97: under `Eager` reset release itself is the trigger of BUILD. -/
theorem triggered_of_eager (s : State) (h : s.policy = .eager) : s.triggered = true := by
  simp [State.triggered, h]

theorem portsOpen_of_lazy (s : State) (h : s.policy = .lazy) : s.portsOpen = true := by
  simp [State.portsOpen, h]

/-- 40_construct.md R97, 70_reset_and_hazards.md R270: under `Eager` the ports open when BUILD has ended. -/
theorem portsOpen_of_eager (s : State) (h : s.policy = .eager) : s.portsOpen = s.phase.settled := by
  simp [State.portsOpen, h]

/-- Settles O1: the reset state's fields, and the ports by policy and phase. -/
theorem resetLeavesUninitAndTheAuthoredTable : Obligations.ResetLeavesUninitAndTheAuthoredTable := by
  refine ⟨rfl, rfl, fun spec p => ⟨rfl, rfl, rfl, rfl, ?triggered⟩,
    fun s he => ⟨?closed, ?opened⟩, portsOpen_of_lazy⟩
  case triggered => exact triggered_of_eager { State.reset with spec := spec, policy := p }
  case closed =>
    rw [portsOpen_of_eager s he]
    rintro (hp | hp) <;> rw [hp] <;> rfl
  case opened =>
    rw [portsOpen_of_eager s he]
    exact id

end Sys2Proof.Proofs
end

section
/-! PROOFS. What BUILD leaves behind is a function of the table, and in `Building` one step of the Builder ends BUILD: the
proofs of `BuildDependsOnTheTableAlone` and `BuildingEndsInOneBuilderStep`. -/

namespace Sys2Proof.Proofs

open Sys2Proof.Machine Sys2Proof.Claims

/-! ### The registers at the end of BUILD -/

/-- 40_construct.md R91, R92: a table that meets the two conditions passes `validate`. -/
theorem validate_of_specValid (spec : List Descriptor) (h : SpecValid spec) : validate spec = .ok :=
  (validateFrom_ok spec 0 []).2 ⟨h.1, fun _ _ => List.not_mem_nil, h.2⟩

/-- 10_state.md R33: where BUILD has ended, `INIT` and its register are what `build_finish` puts there. -/
theorem buildFinish_phase_of_settled (s : State) (hok : PhaseOk s.spec s.phase) (hset : s.phase.settled = true) :
    (buildFinish s).phase = s.phase := by
  cases hp : s.phase with
  | uninit => simp [hp] at hset
  | building => simp [hp] at hset
  | ready idx =>
    obtain ⟨hv, rfl⟩ : SpecValid s.spec ∧ idx = deriveIndex s.spec := by rwa [hp] at hok
    simp only [buildFinish, validate_of_specValid s.spec hv]
  | failed info =>
    have hv : validate s.spec = .error info := by rwa [hp] at hok
    simp only [buildFinish, hv, raise_phase]

/-- 20_memory.md R53: `build_finish` reads the table alone. -/
theorem buildFinish_phase_congr (s s' : State) (h : s.spec = s'.spec) : (buildFinish s).phase = (buildFinish s').phase := by
  unfold buildFinish
  rw [h]
  cases validate s'.spec <;> rfl

theorem allRows_congr (s s' : State) (hspec : s.spec = s'.spec) (hp : s.phase = s'.phase) : allRows s = allRows s' := by
  simp only [allRows, hspec, hp]

/-- Settles O15: both runs keep the table and the invariant, so both phases are what `build_finish` makes of that table. -/
theorem buildDependsOnTheTableAlone : Obligations.BuildDependsOnTheTableAlone := by
  intro k k' s s' t t' hs hs' hspec ht ht' hset hset'
  have hinv : MachineInv t := run_keeps MachineInv stepKeepsInvariant k s t hs ht
  have hinv' : MachineInv t' := run_keeps MachineInv stepKeepsInvariant k' s' t' hs' ht'
  obtain ⟨hkeep, -⟩ := runsNeverChangeTheTable k s t ht
  obtain ⟨hkeep', -⟩ := runsNeverChangeTheTable k' s' t' ht'
  have htt : t.spec = t'.spec := by rw [hkeep, hkeep', hspec]
  have hphase : t.phase = t'.phase := by
    rw [← buildFinish_phase_of_settled t hinv.phase hset, ← buildFinish_phase_of_settled t' hinv'.phase hset',
      buildFinish_phase_congr t t' htt]
  exact ⟨hphase, allRows_congr t t' htt hphase⟩

/-! ### The Builder's step that ends BUILD -/

theorem builderStep_of_building (s : State) (hp : s.phase = .building) : builderStep s = buildFinish s := by
  simp only [builderStep, hp]

/-- 40_construct.md R94: `build_finish` ends BUILD, one way or the other. -/
theorem buildFinish_settled (s : State) : (buildFinish s).phase.settled = true := by
  unfold buildFinish
  cases validate s.spec <;> rfl

theorem step_builder (s : State) (rest : List Turn) (hs : s.schedule = .builder :: rest) :
    step s = .next (builderStep { s with schedule := rest }) := by
  simp only [step, takeTurn, hs]

/-- Log 2: with nobody scheduled the Builder acts until BUILD has ended. -/
theorem step_quiet_of_unsettled (s : State) (hs : s.schedule = []) (hset : s.phase.settled = false) :
    step s = .next (builderStep s) := by
  simp [step, takeTurn, hs, quietTurn, hset]

/-- Settles O44: the step taken is the Builder's, and in `Building` it is `build_finish`. -/
theorem buildingEndsInOneBuilderStep : Obligations.BuildingEndsInOneBuilderStep := by
  intro s hp hhead
  have ends : ∀ u : State, u.phase = .building → (builderStep u).phase.settled = true := by
    intro u hu
    rw [builderStep_of_building u hu]
    exact buildFinish_settled u
  rcases hhead with hnone | hbuilder
  · exact ⟨_, step_quiet_of_unsettled s (List.head?_eq_none_iff.1 hnone) (by rw [hp]; rfl), ends s hp,
      builderStep_readers s⟩
  · obtain ⟨rest, hs⟩ := List.head?_eq_some_iff.1 hbuilder
    exact ⟨_, step_builder s rest hs, ends _ hp, builderStep_readers _⟩

end Sys2Proof.Proofs
end

section
/-! PROOFS. The opcode bytes: the bytes the default map decodes are the opcodes of the default table, and what a ROM row
does to its engine: the proofs of `PresentBytesAreTheDefaultOpcodes` and `RomRowsChangeOnlyTheirEngine`. -/

namespace Sys2Proof.Proofs

open Sys2Proof.Machine Sys2Proof.Claims

/-! ### The present bytes -/

theorem decodeOpcode_isOk_iff (b : Byte) : (∃ i, decodeOpcode b = .ok i) ↔ (opcodeMap.lookup b).isSome = true := by
  unfold decodeOpcode
  cases opcodeMap.lookup b <;> simp

/-- 30_encoding.md R71, 20_memory.md R44: the default map and the default table name the same bytes, in authoring order. -/
theorem opcodeMap_bytes : opcodeMap.map (·.1) = defaultSpec.map (·.opcode) := by decide

/-- Settles O53: a byte decodes when the default map has it as a key, and the keys are the default table's opcodes. -/
theorem presentBytesAreTheDefaultOpcodes : Obligations.PresentBytesAreTheDefaultOpcodes := by
  intro b
  calc (∃ i, decodeOpcode b = .ok i)
      ↔ (opcodeMap.lookup b).isSome = true := decodeOpcode_isOk_iff b
    _ ↔ b ∈ opcodeMap.map (·.1) := by
      simp only [List.lookup_isSome_iff, List.mem_map, beq_iff_eq, eq_comm (a := b)]
    _ ↔ b ∈ defaultSpec.map (·.opcode) := by rw [opcodeMap_bytes]

/-! ### The engine's address and charge -/

/-- 41_lookup.md R102, log 8: after a `Miss` the engine stays, or goes on where its own policy says. -/
theorem missed_pc_cases (r : Reader) : r.missed.pc = r.pc ∨ r.engine.onMiss = some r.missed.pc := by
  cases h : r.engine.onMiss with
  | none => exact .inl (by simp only [Reader.missed, h])
  | some a => exact .inr (by simp only [Reader.missed, h])

/-- 47_penalty_rules.md R221: without a `Hit` nothing is charged, and only a `Miss` moves the engine. -/
theorem opcodeEffect_of_no_hit (spec : List Descriptor) (p : Phase) (b : Byte) (r : Reader)
    (hno : ∀ d, (opcodeEffect spec p b r).resp ≠ some (.hit d)) :
    (opcodeEffect spec p b r).cycles = r.cycles ∧
      ((opcodeEffect spec p b r).pc = r.pc ∨
        (opcodeEffect spec p b r).resp = some .miss ∧ r.engine.onMiss = some (opcodeEffect spec p b r).pc) := by
  rcases opcodeEffect_cases spec p b r with ⟨d, h⟩ | h | h <;> rw [h] at hno ⊢
  · exact absurd rfl (hno d)
  · exact ⟨rfl, (missed_pc_cases r).imp_right (⟨rfl, ·⟩)⟩
  · exact ⟨rfl, .inl rfl⟩

/-- Settles O28: the frame of every instruction, and a ROM row acts on its port as its opcode byte does. -/
theorem romRowsChangeOnlyTheirEngine : Obligations.RomRowsChangeOnlyTheirEngine := by
  intro i s t hc h
  refine ⟨exec_portFrame i s t h, fun r r' hr hr' hno => ?_⟩
  obtain ⟨b, hb⟩ := encode_of_not_command i hc
  obtain rfl : r' = opcodeEffect s.spec s.phase b r := by
    rw [atPort_of_exec_next i s t r r' h hr hr', codeEffect_opcode _ _ b i hb]
  exact opcodeEffect_of_no_hit s.spec s.phase b r hno

end Sys2Proof.Proofs
end

section
/-! PROOFS. Readers' turns once BUILD has ended: turns on two ports commute, and in `Ready` every held request is answered,
the lowest port first: the proofs of `TurnsOfTwoReadersCommute` and `HeldRequestsAreAnsweredOnceReady`. -/

namespace Sys2Proof.Proofs

open Sys2Proof.Machine Sys2Proof.Claims

/-! ### The state after a turn -/

theorem afterTurn_self (s : State) (p : Nat) (rest : List Turn) (r x : Reader) (hr : s.readers[p]? = some r) :
    (afterTurn s p rest x).readers[p]? = some x :=
  setActive_self { s with schedule := rest, active := p } x r hr

theorem afterTurn_other (s : State) (p q : Nat) (rest : List Turn) (x : Reader) (h : q ≠ p) :
    (afterTurn s p rest x).readers[q]? = s.readers[q]? :=
  setActive_other { s with schedule := rest, active := p } x q h

/-! ### Two Readers -/

/-- 40_construct.md R97: once BUILD has ended the ports are open, whatever the policy. -/
theorem portsOpen_of_settled (s : State) (h : s.phase.settled = true) : s.portsOpen = true := by
  simp [State.portsOpen, h]

/-- Once BUILD has ended, the scheduled turn of a Reader is taken. -/
theorem step_reader_of_settled (s : State) (p : Nat) (rest : List Turn) (r : Reader) (hset : s.phase.settled = true)
    (hs : s.schedule = .reader p :: rest) (hr : s.readers[p]? = some r) :
    step s = .next (afterTurn s p rest (turnEffect s.spec s.phase r)) := by
  rw [step_reader s p rest (portsOpen_of_settled s hset) hs]
  exact readerTurn_of_port p { s with schedule := rest } r hr

/-- 41_lookup.md R105: of two turns on different ports, the second finds its own port as it was before the first. -/
theorem run_two_readers (s : State) (p q : Nat) (rest : List Turn) (r₁ r₂ : Reader) (hset : s.phase.settled = true)
    (hpq : p ≠ q) (hp : s.readers[p]? = some r₁) (hq : s.readers[q]? = some r₂) :
    Host.Core.run Sys2Proof.core 2 { s with schedule := .reader p :: .reader q :: rest } =
      .next (afterTurn (afterTurn s p (.reader q :: rest) (turnEffect s.spec s.phase r₁)) q rest
        (turnEffect s.spec s.phase r₂)) := by
  have hfirst : step { s with schedule := .reader p :: .reader q :: rest } =
      .next (afterTurn s p (.reader q :: rest) (turnEffect s.spec s.phase r₁)) :=
    step_reader_of_settled _ p _ r₁ hset rfl hp
  have hsecond := step_reader_of_settled (afterTurn s p (.reader q :: rest) (turnEffect s.spec s.phase r₁)) q rest r₂
    hset rfl ((afterTurn_other s p q _ _ hpq.symm).trans hq)
  rw [run_of_step 1 _ _ hfirst, run_of_step 0 _ _ hsecond]
  rfl

/-- Settles O49: each order writes the same two records, on different ports. -/
theorem turnsOfTwoReadersCommute : Obligations.TurnsOfTwoReadersCommute := by
  intro s p q rest hset hpq hp hq
  have hrp := List.getElem?_eq_getElem hp
  have hrq := List.getElem?_eq_getElem hq
  exact ⟨_, _, run_two_readers s p q rest _ _ hset hpq hrp hrq, run_two_readers s q p rest _ _ hset hpq.symm hrq hrp,
    List.set_comm _ _ hpq, rfl, rfl, rfl⟩

/-! ### An answer in `Ready` -/

/-- `r` holds nothing out and has a response. -/
def Served (r : Reader) : Prop := r.held = none ∧ r.resp.isSome = true

theorem served_answered (x : Response) (r : Reader) : Served (r.answered x) := ⟨rfl, rfl⟩

theorem opcodeEffect_served (spec : List Descriptor) (idx : Index) (b : Byte) (r : Reader) :
    Served (opcodeEffect spec (.ready idx) b r) := by
  cases h : romRead spec idx b with
  | present d => simp [Served, opcodeEffect, h]
  | absent => simp [Served, opcodeEffect, h]

/-- 41_lookup.md R100, R103, 40_construct.md R95: in `Ready` every instruction is answered. -/
theorem portEffect_served (spec : List Descriptor) (idx : Index) (i : Instr) (r : Reader) :
    Served (portEffect spec (.ready idx) i r) := by
  cases hc : isCommand i with
  | false =>
    obtain ⟨b, hb⟩ := encode_of_not_command i hc
    rw [codeEffect_opcode spec _ b i hb]
    exact opcodeEffect_served spec idx b r
  | true =>
    cases i
    case idle => exact served_answered _ r
    case lookup => exact served_answered _ r
    case rowRead => exact served_answered _ r
    case build => exact served_answered _ r
    case count => exact served_answered _ r
    case status => exact served_answered _ r
    case reserved => exact served_answered _ r
    all_goals cases hc

theorem codeEffect_served (spec : List Descriptor) (idx : Index) (c : Code) (r : Reader) :
    Served (codeEffect spec (.ready idx) c r) := by
  unfold codeEffect
  cases decode c with
  | ok i => exact portEffect_served spec idx i r
  | error e => exact opcodeEffect_served spec idx e.1 r

theorem turnEffect_served (spec : List Descriptor) (idx : Index) (r : Reader) (hh : r.held.isSome = true) :
    Served (turnEffect spec (.ready idx) r) := by
  obtain ⟨c, hc⟩ := Option.isSome_iff_exists.1 hh
  simpa only [turnEffect, hc] using codeEffect_served spec idx c r

/-! ### The order in which held requests are answered -/

/-- No port below `j` holds a request out. -/
def FreeBelow (j : Nat) (s : State) : Prop := ∀ i < j, ∀ r, s.readers[i]? = some r → r.held = none

theorem firstAnswerable_of_ready (s : State) (idx : Index) (hp : s.phase = .ready idx) :
    firstAnswerable s = s.readers.findIdx? (·.held.isSome) := by
  unfold firstAnswerable
  congr 1
  funext r
  cases hh : r.held <;> simp [hp, answerable]

/-- Log 2: in `Ready` the first port with an answerable request is the lowest one that holds a request out. -/
theorem firstAnswerable_lowest (s : State) (idx : Index) (p : Nat) (r : Reader) (hp : s.phase = .ready idx)
    (hr : s.readers[p]? = some r) (hh : r.held.isSome = true) :
    ∃ q r', firstAnswerable s = some q ∧ s.readers[q]? = some r' ∧ r'.held.isSome = true ∧ FreeBelow q s := by
  have hany : (firstAnswerable s).isSome = true := by
    rw [firstAnswerable_of_ready s idx hp, List.findIdx?_isSome]
    exact List.any_eq_true.2 ⟨r, List.mem_of_getElem? hr, hh⟩
  obtain ⟨q, hq⟩ := Option.isSome_iff_exists.1 hany
  have hfind := hq
  rw [firstAnswerable_of_ready s idx hp] at hfind
  obtain ⟨hlt, hheld, hlow⟩ := List.findIdx?_eq_some_iff_getElem.1 hfind
  refine ⟨q, s.readers[q], hq, List.getElem?_eq_getElem hlt, hheld, ?_⟩
  intro i hi x hx
  obtain ⟨-, rfl⟩ := List.getElem?_eq_some_iff.1 hx
  simpa using hlow i hi

theorem le_of_freeBelow (s : State) (j p : Nat) (r : Reader) (hfree : FreeBelow j s) (hr : s.readers[p]? = some r)
    (hh : r.held.isSome = true) : j ≤ p := by
  by_contra hlt
  simp [hfree p (not_le.1 hlt) r hr] at hh

/-- Log 2: with nobody scheduled, the first port whose held request has an answer is offered it again. -/
theorem step_quiet_of_firstAnswerable (s : State) (q : Nat) (r : Reader) (hs : s.schedule = [])
    (hset : s.phase.settled = true) (hq : firstAnswerable s = some q) (hr : s.readers[q]? = some r) :
    step s = .next (afterTurn s q s.schedule (turnEffect s.spec s.phase r)) := by
  simp only [step, takeTurn, hs, quietTurn, hset, hq, if_true]
  rw [readerTurn_of_port q s r hr, ← hs]
  rfl

/-- A turn that serves the lowest holding port leaves one port more without a held request. -/
theorem freeBelow_afterTurn (s : State) (q : Nat) (rest : List Turn) (r x : Reader) (hfree : FreeBelow q s)
    (hr : s.readers[q]? = some r) (hx : Served x) : FreeBelow (q + 1) (afterTurn s q rest x) := by
  intro i hi y hy
  rcases Nat.lt_succ_iff_lt_or_eq.1 hi with hlt | rfl
  · rw [afterTurn_other s q i rest x hlt.ne] at hy
    exact hfree i hlt y hy
  · rw [afterTurn_self s i rest r x hr] at hy
    obtain rfl := Option.some.inj hy
    exact hx.1

/-- 20_memory.md R49, 70_reset_and_hazards.md R273: where no port below `j` holds a request out, one of the `m` ports from `j`
on that does is served within `m` steps. Each step serves the lowest holding port, so `j` rises as `m` falls. -/
theorem served_within (idx : Index) (p : Nat) (r : Reader) (hh : r.held.isSome = true) (m j : Nat) (s : State)
    (hs : s.schedule = []) (hp : s.phase = .ready idx) (hfree : FreeBelow j s) (hr : s.readers[p]? = some r)
    (hlt : p < j + m) :
    ∃ k t r', k ≤ m ∧ Host.Core.run Sys2Proof.core k s = .next t ∧ t.readers[p]? = some r' ∧ Served r' := by
  induction m generalizing j s with
  | zero =>
    exact absurd (le_of_freeBelow s j p r hfree hr hh) (Nat.not_le.2 hlt)
  | succ m ih =>
    obtain ⟨q, x, hq, hx, hheld, hfreeq⟩ := firstAnswerable_lowest s idx p r hp hr hh
    have hjq : j ≤ q := le_of_freeBelow s j q x hfree hx hheld
    have hserved : Served (turnEffect s.spec s.phase x) := hp ▸ turnEffect_served s.spec idx x hheld
    have hstep := step_quiet_of_firstAnswerable s q x hs (by rw [hp]; rfl) hq hx
    by_cases hqp : p = q
    · subst hqp
      exact ⟨1, _, _, by omega, run_of_step 0 s _ hstep, afterTurn_self s p _ x _ hx, hserved⟩
    · have hfree' := freeBelow_afterTurn s q s.schedule x _ hfreeq hx hserved
      obtain ⟨k, t, r', hk, hrun, hr', hserved'⟩ :=
        ih (q + 1) (afterTurn s q s.schedule _) hs hp hfree' ((afterTurn_other s q p _ _ hqp).trans hr) (by omega)
      exact ⟨k + 1, t, r', by omega, (run_of_step k s _ hstep).trans hrun, hr', hserved'⟩

/-- Settles O45: port `p` is among the first `p + 1` ports, which are served in at most that many steps. -/
theorem heldRequestsAreAnsweredOnceReady : Obligations.HeldRequestsAreAnsweredOnceReady := by
  rintro s p r hs ⟨idx, hp⟩ hr hh
  obtain ⟨hlt, -⟩ := List.getElem?_eq_some_iff.1 hr
  have hfree : FreeBelow 0 s := fun i hi => absurd hi (Nat.not_lt_zero i)
  obtain ⟨k, t, r', hk, hrun, hr', hheld, hresp⟩ := served_within idx p r hh (p + 1) 0 s hs hp hfree hr (by omega)
  exact ⟨k, t, r', by omega, hrun, hr', hheld, hresp⟩

end Sys2Proof.Proofs
end

section
/-! PROOFS. The code of an instruction: every well-formed instruction is read back from its code, and the decoder reads
nothing from a code that is not the instruction's own: the proofs of `DecodeOfEncode`, `EncodeOfDecode` and
`SampleWordsDecode`. -/

namespace Sys2Proof.Proofs

open Sys2Proof.Machine Sys2Proof.Claims

/-! ### From the instruction to its code and back -/

/-- 30_encoding.md R68, R73: the two reserved codes keep their code and their argument. -/
theorem decodeRequest_of_reserved (code : BitVec 3) (x : Byte) (h : (Instr.reserved code x).wf = true) :
    decodeRequest (requestWord code x) = .reserved code x := by
  have hcode : code = 6 ∨ code = 7 := by simpa [Instr.wf] using h
  rcases hcode with rfl | rfl <;> simp [decodeRequest]

/-- 30_encoding.md R68: a command is read back from its request word with every bit of its argument. -/
theorem decode_encode_of_command (i : Instr) (hwf : i.wf = true) (hc : isCommand i = true) :
    decode (encode i) = .ok i := by
  cases hw : waits i with
  | true => exact decode_encode_of_waiting_command i hc hw
  | false =>
    cases i
    case idle x => simp [encode, decode, decodeRequest]
    case status x => simp [encode, decode, decodeRequest]
    case reserved code x => exact congrArg _ (decodeRequest_of_reserved code x hwf)
    all_goals cases hw

/-- 30_encoding.md R71: the default map holds the opcode byte of every ROM row. -/
theorem decodeOpcode_of_encode (i : Instr) (b : Byte) (h : encode i = .opcode b) : decodeOpcode b = .ok i := by
  cases i <;> cases h <;> rfl

/-- Settles O50: a command is read back from the fields of its request word, a ROM row from its entry in the opcode map. -/
theorem decodeOfEncode : Obligations.DecodeOfEncode := by
  intro i hwf
  cases hc : isCommand i with
  | true => exact decode_encode_of_command i hwf hc
  | false =>
    obtain ⟨b, hb⟩ := encode_of_not_command i hc
    rw [hb]
    exact decodeOpcode_of_encode i b hb

/-! ### From the code to its instruction and back -/

/-- A request word is put together again from its two fields, whichever way its code is written. -/
theorem requestWord_of_fields (w : ReqWord) (code : BitVec 3) (h : (w.extractLsb' 8 3).toNat = code.toNat) :
    Code.request (requestWord code (w.extractLsb' 0 8)) = .request w := by
  obtain rfl := BitVec.eq_of_toNat_eq h
  exact congrArg _ BitVec.extractLsb'_append_extractLsb'

/-- 30_encoding.md R68: the instruction read from a request word has that word as its code. -/
theorem encode_decodeRequest (w : ReqWord) : encode (decodeRequest w) = .request w := by
  unfold decodeRequest
  split
  · next h => exact requestWord_of_fields w 0 h
  · next h => exact requestWord_of_fields w 1 h
  · next h => exact requestWord_of_fields w 2 h
  · next h => exact requestWord_of_fields w 3 h
  · next h => exact requestWord_of_fields w 4 h
  · next h => exact requestWord_of_fields w 5 h
  · exact requestWord_of_fields w _ rfl

/-- 30_encoding.md R68, R73: the reserved codes are the two above the six commands. -/
theorem wf_reserved_iff (code : BitVec 3) (x : Byte) : (Instr.reserved code x).wf = true ↔ 6 ≤ code.toNat := by
  have hcodes : ∀ code : BitVec 3, (code == 6 || code == 7) = true ↔ 6 ≤ code.toNat := by decide
  exact hcodes code

theorem wf_decodeRequest (w : ReqWord) : (decodeRequest w).wf = true := by
  unfold decodeRequest
  split
  case h_7 =>
    rw [wf_reserved_iff]
    simp only [imp_false] at *
    omega
  all_goals rfl

theorem wf_of_encode_opcode (i : Instr) (b : Byte) (h : encode i = .opcode b) : i.wf = true := by
  cases i
  case reserved => cases h
  all_goals rfl

/-- Settles O51: a request word is put together again from its fields, an opcode byte is its entry's in the opcode map. -/
theorem encodeOfDecode : Obligations.EncodeOfDecode := by
  intro c i h
  cases c with
  | request w =>
    obtain rfl : decodeRequest w = i := by simpa [decode] using h
    exact ⟨encode_decodeRequest w, wf_decodeRequest w⟩
  | opcode b =>
    have hb := encode_of_decodeOpcode b i h
    exact ⟨hb, wf_of_encode_opcode i b hb⟩

/-- Settles O52: each word is the code of its instruction, and `0xFF` is no key of the opcode map. -/
theorem sampleWordsDecode : Obligations.SampleWordsDecode :=
  ⟨decodeOfEncode (.idle 0xA9) rfl, decodeOfEncode (.lookup 0xA9) rfl, decodeOfEncode (.rowRead 54) rfl,
    decodeOfEncode (.build 0) rfl, decodeOfEncode (.count 0) rfl, decodeOfEncode (.status 0) rfl,
    decodeOfEncode (.reserved 0b111 0xA9) rfl, decodeOfEncode .inx rfl, decodeOfEncode .andAbsX rfl,
    decodeOfEncode .lsrAcc rfl, decodeOfEncode .beq rfl, decodeOfEncode .ldaImm rfl, decodeOfEncode .staIndY rfl, rfl⟩

end Sys2Proof.Proofs
end

section
/-! PROOFS. The packed ROM word: a word and a descriptor fit field by field exactly when `pack` takes the one to the other,
and `unpack` finds that descriptor: the proofs of `PackLosesNothing` and `OnlyPackedWordsUnpack`. -/

namespace Sys2Proof.Proofs

open Sys2Proof.Machine Sys2Proof.Claims

/-! ### The codes of modes and mnemonics -/

/-- 30_encoding.md R64: an id is read back as the mnemonic it was given to, and only such an id is. -/
theorem mnemonicOfId_eq_some_iff (c : BitVec 6) (m : Mnemonic) : mnemonicOfId c = some m ↔ mnemonicId m = some c := by
  constructor
  · have hids : ∀ c : BitVec 6, ∀ m ∈ mnemonicOfId c, mnemonicId m = some c := by decide
    exact hids c m
  · intro h
    cases m <;> cases h <;> rfl

theorem modeOfCode_modeCode (m : Mode) : modeOfCode (modeCode m) = some m := by
  cases m <;> rfl

/-- 30_encoding.md R62: a code is read back as the mode it was given to, and only such a code is. -/
theorem modeOfCode_eq_some_iff (c : BitVec 4) (m : Mode) : modeOfCode c = some m ↔ modeCode m = c := by
  constructor
  · have hcodes : ∀ c : BitVec 4, ∀ m ∈ modeOfCode c, modeCode m = c := by decide
    exact hcodes c m
  · rintro rfl
    exact modeOfCode_modeCode m

/-! ### The fields of a packed word -/

/-- The packed word with the fields given (30_encoding.md R66), most significant first. -/
def romWord (opcode : Byte) (mn : BitVec 6) (len : BitVec 2) (cycles mode : BitVec 4) (b p : Bool) :
    BitVec (8 + 6 + 2 + 4 + 4 + 1 + 1) :=
  opcode ++ mn ++ len ++ cycles ++ mode ++ BitVec.ofBool b ++ BitVec.ofBool p

section
variable (opcode : Byte) (mn : BitVec 6) (len : BitVec 2) (cycles mode : BitVec 4) (b p : Bool)

theorem romWord_opcode : (romWord opcode mn len cycles mode b p).extractLsb' 18 8 = opcode := by
  simp [romWord, BitVec.extractLsb'_append_eq_of_le, -Nat.reduceAdd]

theorem romWord_mnemonic : (romWord opcode mn len cycles mode b p).extractLsb' 12 6 = mn := by
  simp [romWord, BitVec.extractLsb'_append_eq_of_le, BitVec.extractLsb'_append_eq_of_add_le, -Nat.reduceAdd]

theorem romWord_length : (romWord opcode mn len cycles mode b p).extractLsb' 10 2 = len := by
  simp [romWord, BitVec.extractLsb'_append_eq_of_le, BitVec.extractLsb'_append_eq_of_add_le, -Nat.reduceAdd]

theorem romWord_cycles : (romWord opcode mn len cycles mode b p).extractLsb' 6 4 = cycles := by
  simp [romWord, BitVec.extractLsb'_append_eq_of_le, BitVec.extractLsb'_append_eq_of_add_le, -Nat.reduceAdd]

theorem romWord_mode : (romWord opcode mn len cycles mode b p).extractLsb' 2 4 = mode := by
  simp [romWord, BitVec.extractLsb'_append_eq_of_le, BitVec.extractLsb'_append_eq_of_add_le, -Nat.reduceAdd]

theorem romWord_b : (romWord opcode mn len cycles mode b p).getLsbD 1 = b := by
  simp only [romWord, BitVec.getLsbD_append, BitVec.getLsbD_ofBool]
  simp

theorem romWord_p : (romWord opcode mn len cycles mode b p).getLsbD 0 = p := by
  simp only [romWord, BitVec.getLsbD_append, BitVec.getLsbD_ofBool]
  simp

end

theorem ofBool_getLsbD {n : Nat} (w : BitVec n) (k : Nat) : BitVec.ofBool (w.getLsbD k) = w.extractLsb' k 1 := by
  ext i hi
  obtain rfl : i = 0 := by omega
  simp

/-- 30_encoding.md R66: the seven fields are the whole word. -/
theorem romWord_of_fields (w : RomWord) :
    romWord (w.extractLsb' 18 8) (w.extractLsb' 12 6) (w.extractLsb' 10 2) (w.extractLsb' 6 4) (w.extractLsb' 2 4)
      (w.getLsbD 1) (w.getLsbD 0) = w := by
  simp only [romWord, ofBool_getLsbD]
  iterate 6 rw [BitVec.extractLsb'_append_extractLsb'_eq_extractLsb' (by rfl)]
  exact BitVec.extractLsb'_eq_self

/-- The word `w` has the fields of the descriptor `d` (30_encoding.md R66). -/
structure FieldsFit (w : RomWord) (d : Descriptor) : Prop where
  opcode : w.extractLsb' 18 8 = d.opcode
  mnemonic : mnemonicId d.mnemonic = some (w.extractLsb' 12 6)
  length : (w.extractLsb' 10 2).toNat = d.length
  cycles : (w.extractLsb' 6 4).toNat = d.baseCycles
  mode : modeCode d.mode = w.extractLsb' 2 4
  b : w.getLsbD 1 = d.penalty.b
  p : w.getLsbD 0 = d.penalty.p

theorem fieldsFit_romWord (d : Descriptor) (mn : BitVec 6) (hmn : mnemonicId d.mnemonic = some mn) (hl : d.length ≤ 3)
    (hc : d.baseCycles ≤ 15) :
    FieldsFit (romWord d.opcode mn (.ofNat 2 d.length) (.ofNat 4 d.baseCycles) (modeCode d.mode) d.penalty.b d.penalty.p)
      d where
  opcode := romWord_opcode ..
  mnemonic := by rw [hmn, romWord_mnemonic]
  length := by rw [romWord_length, BitVec.toNat_ofNat, Nat.mod_eq_of_lt (by omega)]
  cycles := by rw [romWord_cycles, BitVec.toNat_ofNat, Nat.mod_eq_of_lt (by omega)]
  mode := (romWord_mode ..).symm
  b := romWord_b ..
  p := romWord_p ..

/-- `pack` takes a descriptor to the word that has its fields, and is defined where there is one. -/
theorem pack_eq_some_iff (d : Descriptor) (w : RomWord) : pack d = some w ↔ FieldsFit w d := by
  constructor
  · intro h
    unfold pack at h
    split at h
    · cases h
    · next mn hmn =>
      split at h
      · next hfit =>
        obtain rfl := Option.some.inj h
        exact fieldsFit_romWord d mn hmn hfit.1 hfit.2
      · cases h
  · rintro ⟨hop, hmn, hl, hc, hm, hb, hp⟩
    have hlt := (w.extractLsb' 10 2).isLt
    have hct := (w.extractLsb' 6 4).isLt
    simp only [pack, hmn]
    rw [if_pos (by omega), ← hop, ← hl, ← hc, hm, ← hb, ← hp]
    rw [BitVec.ofNat_toNat, BitVec.ofNat_toNat, BitVec.setWidth_eq, BitVec.setWidth_eq]
    exact congrArg some (romWord_of_fields w)

/-- A word has the fields of at most one descriptor. -/
theorem FieldsFit.unique (w : RomWord) (d d' : Descriptor) (h : FieldsFit w d) (h' : FieldsFit w d') : d' = d := by
  have hmn : some d'.mnemonic = some d.mnemonic := by
    rw [← (mnemonicOfId_eq_some_iff _ _).2 h.mnemonic, (mnemonicOfId_eq_some_iff _ _).2 h'.mnemonic]
  have hm : some d'.mode = some d.mode := by
    rw [← (modeOfCode_eq_some_iff _ _).2 h.mode, (modeOfCode_eq_some_iff _ _).2 h'.mode]
  obtain ⟨_, _, _, _, _, _, _⟩ := d
  obtain ⟨_, _, _, _, _, _, _⟩ := d'
  simp only [Descriptor.mk.injEq, Penalty.mk.injEq]
  exact ⟨h'.opcode.symm.trans h.opcode, Option.some.inj hmn, h'.length.symm.trans h.length,
    h'.cycles.symm.trans h.cycles, Option.some.inj hm, h'.p.symm.trans h.p, h'.b.symm.trans h.b⟩

/-- `unpack` finds the descriptor whose fields the word has, if its length is at least 1. -/
theorem unpack_eq_some_iff (w : RomWord) (d : Descriptor) : unpack w = some d ↔ FieldsFit w d ∧ 1 ≤ d.length := by
  unfold unpack
  constructor
  · intro h
    split at h
    · next mn m hmn hm =>
      split at h
      · cases h
      · next hlen =>
        obtain rfl := Option.some.inj h
        refine ⟨⟨rfl, (mnemonicOfId_eq_some_iff _ _).1 hmn, rfl, rfl, (modeOfCode_eq_some_iff _ _).1 hm, rfl, rfl⟩, ?_⟩
        exact Nat.one_le_iff_ne_zero.2 fun h0 => hlen (BitVec.eq_of_toNat_eq h0)
    · cases h
  · rintro ⟨⟨hop, hmn, hl, hc, hm, hb, hp⟩, hlen⟩
    have hne : w.extractLsb' 10 2 ≠ 0 := by
      intro h0
      rw [← hl, h0] at hlen
      cases hlen
    rw [(mnemonicOfId_eq_some_iff _ _).2 hmn, (modeOfCode_eq_some_iff _ _).2 hm]
    simp only [if_neg hne, hop, hl, hc, hb, hp]

/-- Settles O54: the fields of the packed word are the descriptor's. -/
theorem packLosesNothing : Obligations.PackLosesNothing := by
  intro d w h
  rw [pack_eq_some_iff] at h
  exact ⟨fun hl => (unpack_eq_some_iff w d).2 ⟨h, hl⟩,
    fun d' h' => FieldsFit.unique w d d' h ((pack_eq_some_iff d' w).1 h')⟩

/-- Settles O55: a word unpacks only to the descriptor whose fields it has. -/
theorem onlyPackedWordsUnpack : Obligations.OnlyPackedWordsUnpack := by
  intro w d h
  rw [pack_eq_some_iff]
  exact (unpack_eq_some_iff w d).1 h

end Sys2Proof.Proofs
end

section
/-! PROOFS. The turn that hands a code over, on a port that holds nothing out: the proofs of
`ReaderTurnRunsTheDecodedRequest`, `EngineTurnRunsTheDecodedOpcode` and `AbsentOpcodeByteIsAMissAndNoError`. -/

namespace Sys2Proof.Proofs

open Sys2Proof.Machine Sys2Proof.Claims

/-- 30_encoding.md R68: a Reader that holds nothing out presents its next request word. -/
theorem readerTurn_of_todo (p : Nat) (s : State) (r : Reader) (w : ReqWord) (ws : List ReqWord)
    (hr : s.readers[p]? = some r) (hh : r.held = none) (ht : r.todo = w :: ws) :
    readerTurn p s =
      runCode (.request w) { s with active := p, readers := s.readers.set p { r with todo := ws } } := by
  simp only [readerTurn, hr, hh, ht]

/-- 47_penalty_rules.md R221: an engine whose port holds nothing out presents the byte at its address. -/
theorem engineTurn_of_read (p : Nat) (e : EngineIn) (s : State) (r : Reader) (b : Byte) (hr : s.readers[p]? = some r)
    (hh : r.held = none) (hb : Mem.read s.stream r.pc = some b) :
    engineTurn p e s =
      runCode (.opcode b) { s with active := p, readers := s.readers.set p { r with engine := e } } := by
  simp only [engineTurn, hr, hh, hb]

/-- Settles O39: the step takes the turn, and the turn runs its next request word. -/
theorem readerTurnRunsTheDecodedRequest : Obligations.ReaderTurnRunsTheDecodedRequest := by
  intro s p r w ws rest i ho hs hr hh ht hi
  rw [step_reader s p rest ho hs, readerTurn_of_todo p { s with schedule := rest } r w ws hr hh ht,
    runCode_of_decode _ i _ hi]

/-- Settles O40: the step takes the turn, and the turn runs the byte at its address. -/
theorem engineTurnRunsTheDecodedOpcode : Obligations.EngineTurnRunsTheDecodedOpcode := by
  intro s p e r b rest i ho hs hr hh hb hi
  rw [step_engine s p e rest ho hs, engineTurn_of_read p e { s with schedule := rest } r b hr hh hb,
    runCode_of_decode _ i _ hi]

/-- Settles O42: a byte that is run is presented, whether it decodes or not, and a byte presented goes by the table. -/
theorem absentOpcodeByteIsAMissAndNoError : Obligations.AbsentOpcodeByteIsAMissAndNoError := by
  intro s p e r b rest ho hs hr hh hb hok
  rw [step_engine s p e rest ho hs, engineTurn_of_read p e { s with schedule := rest } r b hr hh hb, runCode_opcode]
  exact presentOpcode_goesByTheTable b _ _ (atPort_set { s with schedule := rest } p r _ hr) hok

end Sys2Proof.Proofs
end

section
/-! PROOFS. The default table and the twelve modes: the proofs of `DefaultTableHasItsProperties` and
`LengthIsOneMoreThanTheOperandBytes`. -/

namespace Sys2Proof.Proofs

open Sys2Proof.Machine Sys2Proof.Claims

theorem specValid_defaultSpec : SpecValid defaultSpec := ⟨by decide, by decide⟩

/-- Settles O38: each property is checked on the 69 rows. -/
theorem defaultTableHasItsProperties : Obligations.DefaultTableHasItsProperties := by
  refine ⟨specValid_defaultSpec, rfl, ?pairs, ?vocabulary, rfl, rfl, ?relative, ?sta, rfl, rfl⟩
  case pairs => decide
  case vocabulary => decide
  case relative => decide
  case sta => decide

/-- Settles O57: mode by mode, and the four reserved codes. -/
theorem lengthIsOneMoreThanTheOperandBytes : Obligations.LengthIsOneMoreThanTheOperandBytes := by
  refine ⟨rfl, rfl, fun m => ⟨?length, ?format, modeOfCode_modeCode m⟩, ?reserved⟩
  case length => cases m <;> rfl
  case format => cases m <;> rfl
  case reserved => decide

end Sys2Proof.Proofs
end

section
/-! PROOFS. The bit form of the responses: the proof of `ResponsesHaveTheirBitForm`. -/

namespace Sys2Proof.Proofs

open Sys2Proof.Machine Sys2Proof.Claims

/-! ### Kinds and data -/

/-- 30_encoding.md R69: the kind 7 is unused. -/
theorem kind_ne_seven (x : Response) : x.kind ≠ 7 := by
  cases x <;> simp [Response.kind]

/-- 30_encoding.md R69: `hit` is set exactly for a Hit. -/
theorem hitSignal_iff (x : Response) : x.hitSignal = true ↔ ∃ d, x = .hit d := by
  cases x <;> simp [Response.hitSignal, Response.kind]

/-- 30_encoding.md R69: a Count shows its number where 26 bits of it are given. -/
theorem count_data (n : Nat) (h : n ≤ 256) : ∃ w, (Response.count n).data = some w ∧ w.toNat = n := by
  refine ⟨BitVec.ofNat 26 n, if_pos h, ?_⟩
  rw [BitVec.toNat_ofNat, Nat.mod_eq_of_lt (by omega)]

/-! ### The failure report -/

theorem rowField_of_le (row : Nat) (h : row ≤ 255) : rowField row = some (.ofNat 8 row) := if_pos h

theorem rowField_of_lt (row : Nat) (h : 255 < row) : rowField row = none := if_neg (by omega)

theorem toNat_ofNat_of_le (row : Nat) (h : row ≤ 255) : (BitVec.ofNat 8 row).toNat = row := by
  rw [BitVec.toNat_ofNat, Nat.mod_eq_of_lt (by omega)]

/-- The fields of the report of a failed BUILD (30_encoding.md R69). -/
def reportBits (info : FailInfo) : StatusBits :=
  ⟨0b11, some info.reason.code, rowField info.row, some info.opcode⟩

theorem statusBits_failed (info : FailInfo) : (Response.status .failed (some info)).statusBits = some (reportBits info) := rfl

/-- 10_state.md R25: outside `Failed` a Status shows `INIT` alone. -/
theorem statusBits_of_not_failed (init : InitState) (info : Option FailInfo) (h : init ≠ .failed) :
    (Response.status init info).statusBits = some ⟨init.code, none, none, none⟩ := by
  simp [Response.statusBits, reportShown, h]

/-- The whole word of a report (log 9): the six bits above it are zero. -/
def reportWord (init reason : BitVec 2) (row opcode : Byte) : BitVec (6 + 8 + 8 + 2 + 2) :=
  (0 : BitVec 6) ++ opcode ++ row ++ reason ++ init

theorem data_failed_of_le (info : FailInfo) (h : info.row ≤ 255) :
    (Response.status .failed (some info)).data =
      some (reportWord 0b11 info.reason.code (.ofNat 8 info.row) info.opcode) := by
  rw [Response.data, statusBits_failed]
  simp [reportBits, StatusBits.word, rowField_of_le _ h, reportWord]

/-- 90_conflicts.md C11: a row that 8 bits do not hold leaves the whole word without a value. -/
theorem data_failed_of_lt (info : FailInfo) (h : 255 < info.row) :
    (Response.status .failed (some info)).data = none := by
  simp [Response.data, statusBits_failed, reportBits, StatusBits.word, rowField_of_lt _ h]

section
variable (init reason : BitVec 2) (row opcode : Byte)

theorem reportWord_init : (reportWord init reason row opcode).extractLsb' 0 2 = init := by
  simp [reportWord, BitVec.extractLsb'_append_eq_of_add_le, -Nat.reduceAdd]

theorem reportWord_reason : (reportWord init reason row opcode).extractLsb' 2 2 = reason := by
  simp [reportWord, BitVec.extractLsb'_append_eq_of_le, BitVec.extractLsb'_append_eq_of_add_le, -Nat.reduceAdd]

theorem reportWord_row : (reportWord init reason row opcode).extractLsb' 4 8 = row := by
  simp [reportWord, BitVec.extractLsb'_append_eq_of_le, BitVec.extractLsb'_append_eq_of_add_le, -Nat.reduceAdd]

theorem reportWord_opcode : (reportWord init reason row opcode).extractLsb' 12 8 = opcode := by
  simp [reportWord, BitVec.extractLsb'_append_eq_of_le, BitVec.extractLsb'_append_eq_of_add_le, -Nat.reduceAdd]

theorem reportWord_above : (reportWord init reason row opcode).extractLsb' 20 6 = 0 := by
  simp [reportWord, BitVec.extractLsb'_append_eq_of_le, -Nat.reduceAdd]

end

/-- 30_encoding.md R69: every field of a failure report by itself. -/
theorem report_fields (reason : FailReason) (row : Nat) (opcode : Byte) :
    ∃ b, (Response.status .failed (some ⟨reason, row, opcode⟩)).statusBits = some b ∧
      b.init = 0b11 ∧ b.reason = some reason.code ∧ b.opcode = some opcode ∧
      (row ≤ 255 → ∃ x, b.row = some x ∧ x.toNat = row) ∧ (255 < row → b.row = none) :=
  ⟨_, statusBits_failed _, rfl, rfl, rfl,
    fun h => ⟨_, rowField_of_le row h, toNat_ofNat_of_le row h⟩, rowField_of_lt row⟩

/-- Settles O56: kind by kind, and the failure report field by field. -/
theorem responsesHaveTheirBitForm : Obligations.ResponsesHaveTheirBitForm := by
  refine ⟨fun _ _ _ _ => ⟨rfl, rfl, rfl, rfl, rfl, rfl, rfl⟩, fun x => ⟨kind_ne_seven x, hitSignal_iff x⟩,
    fun _ => ⟨rfl, rfl⟩, count_data, rfl, rfl, rfl, fun _ _ => rfl, ⟨rfl, rfl, rfl, rfl⟩, ⟨rfl, rfl⟩, report_fields,
    statusBits_of_not_failed, ?word, rfl, rfl, fun _ _ _ h => data_failed_of_lt _ h⟩
  case word =>
    intro reason row opcode h
    refine ⟨_, data_failed_of_le _ h, reportWord_init .., reportWord_reason .., ?_, reportWord_opcode ..,
      reportWord_above ..⟩
    exact (congrArg BitVec.toNat (reportWord_row ..)).trans (toNat_ofNat_of_le row h)

end Sys2Proof.Proofs
end

section
/-! PROOFS. What BUILD accepts: `validate` row by row, and a table of more rows than there are bytes. The proofs of
`ValidateAcceptsExactlyConsistentTables` and `MoreThan256RowsAlwaysFail`. -/

namespace Sys2Proof.Proofs

open Sys2Proof.Machine Sys2Proof.Claims

/-- Settles O8: the loop's two checks from row 0 on, where no opcode has been seen. -/
theorem validateAcceptsExactlyConsistentTables : Obligations.ValidateAcceptsExactlyConsistentTables := by
  intro spec
  refine ⟨fun h => ?_, validate_of_specValid spec⟩
  obtain ⟨hlen, -, hnodup⟩ := (validateFrom_ok spec 0 []).1 h
  exact ⟨hlen, hnodup⟩

/-! ### The row of a report -/

/-- The loop reports a row it has come to. -/
theorem validateFrom_row_lt (ds : List Descriptor) (i : Nat) (seen : List Byte) (info : FailInfo)
    (h : validateFrom i seen ds = .error info) : info.row < i + ds.length := by
  induction ds generalizing i seen with
  | nil => cases h
  | cons d ds ih =>
    rw [List.length_cons]
    unfold validateFrom at h
    split at h
    · cases h; dsimp only; omega
    · split at h
      · cases h; dsimp only; omega
      · have := ih _ _ h; omega

/-- 60_exceptions.md R245: the loop ends at its first report, whatever rows follow. -/
theorem validateFrom_append_of_error (ds es : List Descriptor) (i : Nat) (seen : List Byte) (info : FailInfo)
    (h : validateFrom i seen ds = .error info) : validateFrom i seen (ds ++ es) = .error info := by
  induction ds generalizing i seen with
  | nil => cases h
  | cons d ds ih =>
    unfold validateFrom at h
    rw [List.cons_append, validateFrom]
    split at h
    · next hlen => rw [if_pos hlen, h]
    · next hlen =>
      rw [if_neg hlen]
      split at h
      · next hseen => rw [if_pos hseen, h]
      · next hseen => rw [if_neg hseen, ih _ _ h]

/-! ### More rows than bytes -/

/-- 40_construct.md R92: distinct opcodes are at most as many as there are bytes. -/
theorem length_le_of_specValid (spec : List Descriptor) (h : SpecValid spec) : spec.length ≤ 256 := by
  have hcard : Fintype.card Byte = 256 := (Fintype.card_congr BitVec.equivFin.toEquiv).trans (Fintype.card_fin _)
  simpa [hcard] using h.2.length_le_card

theorem validate_error_of_length (spec : List Descriptor) (h : 256 < spec.length) :
    ∃ info, validate spec = .error info := by
  cases hv : validate spec with
  | error info => exact ⟨info, rfl⟩
  | ok =>
    have := length_le_of_specValid spec ((validateAcceptsExactlyConsistentTables spec).1 hv)
    omega

/-- Settles O10: the first 257 rows fail already, at one of them, and the whole table fails where they do. -/
theorem moreThan256RowsAlwaysFail : Obligations.MoreThan256RowsAlwaysFail := by
  intro spec hlen
  have hfirst : (spec.take 257).length = 257 := List.length_take_of_le hlen
  obtain ⟨info, hinfo⟩ := validate_error_of_length (spec.take 257) (by omega)
  refine ⟨info, ?_, ?_⟩
  · have happend := validateFrom_append_of_error _ (spec.drop 257) 0 [] info hinfo
    rwa [List.take_append_drop] at happend
  · have := validateFrom_row_lt _ 0 [] info hinfo
    omega

end Sys2Proof.Proofs
end

section
/-! PROOFS. The index BUILD derives, and the Builder's turn: the proofs of `BuildFillsTheIndexExactly` and
`BuilderTurnIsBuildStartOrBuildFinish`. -/

namespace Sys2Proof.Proofs

open Sys2Proof.Machine Sys2Proof.Claims

/-! ### The derived index -/

theorem deriveIndex_length (spec : List Descriptor) : (deriveIndex spec).length = 256 :=
  (fillIndex_length spec 0 _).trans List.length_replicate

/-- 40_construct.md R93: the entry of a row's opcode is the row's number. -/
theorem deriveIndex_of_row (spec : List Descriptor) (hv : SpecValid spec) (k : Nat) (d : Descriptor)
    (hk : spec[k]? = some d) : (deriveIndex spec)[d.opcode.toNat]? = some (some k) := by
  simpa only [deriveIndex, Nat.zero_add] using
    (fillIndex_get spec 0 _ d.opcode List.length_replicate hv.2).1 k d hk rfl

/-- 40_construct.md R93: the entry of a byte that is no row's opcode is `None`. -/
theorem deriveIndex_of_absent (spec : List Descriptor) (hv : SpecValid spec) (b : Byte)
    (hb : ∀ d ∈ spec, d.opcode ≠ b) : (deriveIndex spec)[b.toNat]? = some none := by
  rw [deriveIndex, (fillIndex_get spec 0 _ b List.length_replicate hv.2).2 hb]
  exact List.getElem?_replicate_of_lt b.isLt

/-- A byte is the opcode of a row of the table or of none. -/
theorem row_or_absent (spec : List Descriptor) (b : Byte) :
    (∃ (k : Nat) (d : Descriptor), spec[k]? = some d ∧ d.opcode = b) ∨ ∀ d ∈ spec, d.opcode ≠ b := by
  by_cases h : ∃ d ∈ spec, d.opcode = b
  · obtain ⟨d, hd, hb⟩ := h
    obtain ⟨k, hk⟩ := List.mem_iff_getElem?.1 hd
    exact .inl ⟨k, d, hk, hb⟩
  · exact .inr fun d hd hb => h ⟨d, hd, hb⟩

/-- 10_state.md R27: an entry of the derived index is `Some i` exactly where row `i` has that opcode. -/
theorem deriveIndex_some_iff (spec : List Descriptor) (hv : SpecValid spec) (b : Byte) (i : Nat) :
    (deriveIndex spec)[b.toNat]? = some (some i) ↔ ∃ d, spec[i]? = some d ∧ d.opcode = b := by
  refine ⟨fun h => ?_, fun ⟨d, hi, hb⟩ => hb ▸ deriveIndex_of_row spec hv i d hi⟩
  rcases row_or_absent spec b with ⟨k, d, hk, rfl⟩ | habsent
  · obtain rfl : k = i := by simpa [deriveIndex_of_row spec hv k d hk] using h
    exact ⟨d, hk, rfl⟩
  · simp [deriveIndex_of_absent spec hv b habsent] at h

/-- 10_state.md R27: an entry of the derived index is `None` exactly where no row has that opcode. -/
theorem deriveIndex_none_iff (spec : List Descriptor) (hv : SpecValid spec) (b : Byte) :
    (deriveIndex spec)[b.toNat]? = some none ↔ ∀ d ∈ spec, d.opcode ≠ b := by
  refine ⟨?_, deriveIndex_of_absent spec hv b⟩
  rintro h d hd rfl
  obtain ⟨k, hk⟩ := List.mem_iff_getElem?.1 hd
  simp [deriveIndex_of_row spec hv k d hk] at h

/-! ### The Builder's step in each phase -/

theorem buildFinish_of_ok (s : State) (h : validate s.spec = .ok) :
    buildFinish s = { s with phase := .ready (deriveIndex s.spec) } := by
  simp only [buildFinish, h]

theorem buildFinish_of_error (s : State) (info : FailInfo) (h : validate s.spec = .error info) :
    buildFinish s = { s with phase := .failed info } := by
  simp only [buildFinish, h, raiseSpecInconsistency]

/-- 40_construct.md R97: in `Uninit` the Builder starts where a trigger is present. -/
theorem builderStep_of_triggered (s : State) (hp : s.phase = .uninit) (ht : s.triggered = true) :
    builderStep s = buildStart s := by
  simp only [builderStep, hp, ht, if_true]

theorem builderStep_of_not_triggered (s : State) (hp : s.phase = .uninit) (ht : s.triggered = false) :
    builderStep s = s := by
  simp [builderStep, hp, ht]

/-- 40_construct.md R95: once BUILD has ended the Builder has no step. -/
theorem builderStep_of_settled (s : State) (h : s.phase.settled = true) : builderStep s = s := by
  unfold builderStep
  cases hp : s.phase with
  | uninit => simp [hp] at h
  | building => simp [hp] at h
  | ready idx => rfl
  | failed info => rfl

/-- Settles O11: `validate` accepts valid tables alone, and on such a table each entry of the derived index is known. -/
theorem buildFillsTheIndexExactly : Obligations.BuildFillsTheIndexExactly := by
  intro s hok
  have hv : SpecValid s.spec := (validateAcceptsExactlyConsistentTables s.spec).1 hok
  rw [buildFinish_of_ok s hok]
  exact ⟨rfl, deriveIndex s.spec, rfl, deriveIndex_length s.spec,
    fun b => ⟨deriveIndex_some_iff s.spec hv b, deriveIndex_none_iff s.spec hv b⟩⟩

/-- Settles O12: the step is the Builder's, which is known in each phase. -/
theorem builderTurnIsBuildStartOrBuildFinish : Obligations.BuilderTurnIsBuildStartOrBuildFinish := by
  intro s rest hs
  rw [step_builder s rest hs]
  refine ⟨fun hp ht => ?start, fun hp ht => ?wait, fun hp hv => ?finish, fun info hp hv => ?fail, fun hset => ?settled⟩
  case start => exact congrArg _ (builderStep_of_triggered { s with schedule := rest } hp ht)
  case wait => exact congrArg _ (builderStep_of_not_triggered { s with schedule := rest } hp ht)
  case finish =>
    rw [builderStep_of_building { s with schedule := rest } hp, buildFinish_of_ok { s with schedule := rest } hv]
  case fail =>
    rw [builderStep_of_building { s with schedule := rest } hp, buildFinish_of_error { s with schedule := rest } info hv]
  case settled => exact congrArg _ (builderStep_of_settled { s with schedule := rest } hset)

end Sys2Proof.Proofs
end

section
/-! PROOFS. What a request gets at its port: an answer at once, or a hold until BUILD has ended. The proofs of
`IdleAndReservedAreAnsweredNone`, `StatusIsAnsweredInEveryState`, `BuildAgainOnlyReportsTheStatus`,
`EmptyTableBuildsAndMissesEverything` and `TriggersOfBuild`. -/

namespace Sys2Proof.Proofs

open Sys2Proof.Machine Sys2Proof.Claims

/-! ### Requests that are answered -/

/-- 30_encoding.md R68: the word a well-formed command is encoded by decodes to that command. -/
theorem decodeRequest_of_encode (i : Instr) (w : ReqWord) (hwf : i.wf = true) (h : encode i = .request w) :
    decodeRequest w = i := by
  have hdec := decodeOfEncode i hwf
  rw [h] at hdec
  exact Except.ok.inj hdec

/-- An instruction whose effect on its port is an answer answers there, and changes nothing else. -/
theorem answers_of_portEffect (i : Instr) (s : State) (r : Reader) (x : Response) (h : AtPort s r)
    (he : portEffect s.spec s.phase i r = r.answered x) : Answers i s r x := by
  rw [Answers, exec_of_port i s r h, he]
  rfl

/-- Settles O16: the effect of IDLE and of a reserved command is the answer `None` in every state. -/
theorem idleAndReservedAreAnsweredNone : Obligations.IdleAndReservedAreAnsweredNone :=
  ⟨fun x => decodeRequest_of_encode (.idle x) _ rfl rfl,
    fun x => decodeRequest_of_encode (.reserved 0b110 x) _ rfl rfl,
    fun x => decodeRequest_of_encode (.reserved 0b111 x) _ rfl rfl,
    fun s r h => ⟨fun x => answers_of_portEffect (.idle x) s r _ h rfl,
      fun code x => answers_of_portEffect (.reserved code x) s r _ h rfl⟩⟩

/-- 40_construct.md R98: where BUILD has not failed the status is `INIT` alone. -/
theorem statusResponse_of_not_failed (p : Phase) (h : p.initState ≠ .failed) :
    statusResponse p = .status p.initState none := by
  cases p with
  | failed info => exact absurd rfl h
  | _ => rfl

theorem answers_status (s : State) (r : Reader) (x : Byte) (h : AtPort s r) :
    Answers (.status x) s r (statusResponse s.phase) :=
  answers_of_portEffect (.status x) s r _ h rfl

/-- Settles O17: STATUS is answered with the phase's status, which is `INIT` with the report if BUILD has failed. -/
theorem statusIsAnsweredInEveryState : Obligations.StatusIsAnsweredInEveryState := by
  refine ⟨fun x => decodeRequest_of_encode (.status x) _ rfl rfl,
    fun s r x h => ⟨fun info hp => ?failed, fun hp => ?other⟩, rfl, rfl⟩
  case failed =>
    have hstatus := answers_status s r x h
    rwa [hp] at hstatus
  case other =>
    rw [← statusResponse_of_not_failed s.phase hp]
    exact answers_status s r x h

/-- 40_construct.md R95: once BUILD has ended, a BUILD request gets the status. -/
theorem portEffect_build_of_settled (spec : List Descriptor) (p : Phase) (x : Byte) (h : p.settled = true) :
    portEffect spec p (.build x) = Reader.answered (statusResponse p) := by
  simp only [portEffect, h, if_true]

theorem answers_build_of_settled (s : State) (r : Reader) (x : Byte) (h : AtPort s r) (hset : s.phase.settled = true) :
    Answers (.build x) s r (statusResponse s.phase) :=
  answers_of_portEffect (.build x) s r _ h (by rw [portEffect_build_of_settled _ _ x hset])

/-- Settles O22: in both settled phases BUILD is answered with the phase's status. -/
theorem buildAgainOnlyReportsTheStatus : Obligations.BuildAgainOnlyReportsTheStatus := by
  refine ⟨fun x => decodeRequest_of_encode (.build x) _ rfl rfl,
    fun s r x h => ⟨fun idx hp => ?ready, fun info hp => ?failed⟩⟩
  all_goals
    have hbuild := answers_build_of_settled s r x h (by rw [hp]; rfl)
    rwa [hp] at hbuild

/-- 41_lookup.md R102: on a built table LOOKUP of a byte that is no row's opcode is a miss. -/
theorem answers_lookup_of_absent (s : State) (r : Reader) (b : Byte) (h : AtPort s r) (hv : SpecValid s.spec)
    (hp : s.phase = .ready (deriveIndex s.spec)) (hb : ∀ d ∈ s.spec, d.opcode ≠ b) : Answers (.lookup b) s r .miss := by
  refine answers_of_portEffect (.lookup b) s r .miss h ?_
  simp only [portEffect, readEffect, hp, lookupResponse, romRead_deriveIndex_of_absent s.spec b hv hb]

/-- Settles O14: the empty table is valid, and no byte is the opcode of one of its rows. -/
theorem emptyTableBuildsAndMissesEverything : Obligations.EmptyTableBuildsAndMissesEverything := by
  intro s r hspec hp h
  have hv : SpecValid s.spec := by simp [SpecValid, hspec]
  have hb : ∀ b, ∀ d ∈ s.spec, d.opcode ≠ b := by simp [hspec]
  rw [builderStep_of_building s hp, buildFinish_of_ok s (validate_of_specValid s.spec hv)]
  exact ⟨by rw [hspec], fun b => answers_lookup_of_absent _ r b h hv rfl (hb b)⟩

/-! ### Requests that wait, and the trigger of BUILD -/

theorem initState_ne_ready_of_not_settled (p : Phase) (h : p.settled = false) : p.initState ≠ .ready := by
  cases p with
  | ready idx => cases h
  | _ => simp

theorem readEffect_of_not_ready (p : Phase) (c : Code) (read : Index → Response) (h : p.initState ≠ .ready) :
    readEffect p c read = Reader.holding c := by
  cases p with
  | ready idx => exact absurd rfl h
  | _ => rfl

/-- 41_lookup.md R103, 40_construct.md R90: before BUILD has ended, every instruction that waits for it is held out. -/
theorem portEffect_of_waits (spec : List Descriptor) (p : Phase) (i : Instr) (hset : p.settled = false)
    (hw : waits i = true) : portEffect spec p i = Reader.holding (encode i) := by
  have hready := initState_ne_ready_of_not_settled p hset
  cases hc : isCommand i with
  | false =>
    obtain ⟨b, hb⟩ := encode_of_not_command i hc
    rw [codeEffect_opcode spec p b i hb, opcodeEffect_of_not_ready spec p b hready, hb]
  | true =>
    cases i
    case lookup b => exact readEffect_of_not_ready p _ _ hready
    case rowRead k => exact readEffect_of_not_ready p _ _ hready
    case count x => exact readEffect_of_not_ready p _ _ hready
    case build x => simp [portEffect, hset]
    case idle => cases hw
    case status => cases hw
    case reserved => cases hw
    all_goals cases hc

/-- 40_construct.md R98, R99: IDLE, STATUS and the reserved commands are never held out. -/
theorem portEffect_held_of_not_waits (spec : List Descriptor) (p : Phase) (i : Instr) (r : Reader)
    (hw : waits i = false) : (portEffect spec p i r).held = none := by
  rcases portEffect_cases spec p i r with ⟨-, x, h⟩ | ⟨-, d, h⟩ | ⟨-, h⟩ | ⟨hwaits, -⟩
  · rw [h]; rfl
  · rw [h]; rfl
  · rw [h]; rfl
  · simp [hw] at hwaits

/-- 40_construct.md R97: a request held out is a trigger. -/
theorem triggered_of_held (s : State) (p : Nat) (r : Reader) (hr : s.readers[p]? = some r) (hh : r.held.isSome = true) :
    s.triggered = true := by
  rw [State.triggered, Bool.or_eq_true, List.any_eq_true]
  exact .inr ⟨r, List.mem_of_getElem? hr, hh⟩

/-- 40_construct.md R97: where no port holds a request out, only `Eager` is a trigger. -/
theorem triggered_of_no_held (s : State) (h : ∀ r ∈ s.readers, r.held = none) :
    s.triggered = (s.policy == .eager) := by
  have hany : s.readers.any (·.held.isSome) = false := by
    rw [List.any_eq_false]
    intro r hr
    simp [h r hr]
  rw [State.triggered, hany, Bool.or_false]

/-- Settles O13: an instruction that waits is held out, which is a trigger; the others leave no port holding. -/
theorem triggersOfBuild : Obligations.TriggersOfBuild := by
  refine ⟨triggered_of_eager, fun i s t hp hw h => ?waits, fun i s t hfree hw h => ?answered⟩ <;>
    obtain ⟨r, hr, rfl⟩ := exec_next i s t h
  case waits =>
    refine triggered_of_held _ s.active _ (setActive_self s _ r hr) ?_
    rw [portEffect_of_waits s.spec s.phase i (by rw [hp]; rfl) hw]
    rfl
  case answered =>
    rw [triggered_of_no_held s hfree, triggered_of_no_held (setActive s _) ?_, setActive_policy]
    intro x hx
    rcases List.mem_or_eq_of_mem_set hx with hx | rfl
    · exact hfree x hx
    · exact portEffect_held_of_not_waits s.spec s.phase i r hw

end Sys2Proof.Proofs
end

section
/-! PROOFS. From `Uninit` to the end of BUILD: under `Eager` before any request, under `Lazy` by the first request. The proofs
of `EagerBuildsBeforeAnyRequest` and `ExplicitBuildBuildsAndReportsTheStatus`. -/

namespace Sys2Proof.Proofs

open Sys2Proof.Machine Sys2Proof.Claims

/-! ### Under `Eager` -/

/-- A turn whose gate is closed leaves the step to the Builder. -/
theorem gated_closed (turn : State → Result) (rest : List Turn) (s : State) (h : s.portsOpen = false) :
    gated turn rest s = .next (builderStep s) := by
  simp [gated, h]

/-- 40_construct.md R97, 70_reset_and_hazards.md R270, logs 2 and 12: under `Eager` the Builder's step comes before the turn of a
Reader or an engine, and where nobody is scheduled, until BUILD has ended. -/
theorem step_eager_of_unsettled (s : State) (he : s.policy = .eager) (hset : s.phase.settled = false)
    (hhead : ∀ u ∈ s.schedule.head?, ∃ p e, u = .reader p ∨ u = .engine p e) : step s = .next (builderStep s) := by
  have hclosed : s.portsOpen = false := (portsOpen_of_eager s he).trans hset
  cases hs : s.schedule with
  | nil => exact step_quiet_of_unsettled s hs hset
  | cons u rest =>
    obtain ⟨p, e, rfl | rfl⟩ := hhead u (by rw [hs]; rfl)
    · simp only [step, takeTurn, hs, gated_closed _ _ _ hclosed]
    · simp only [step, takeTurn, hs, gated_closed _ _ _ hclosed]

/-- Settles O43: both steps are the Builder's, `build_start` and then `build_finish`. -/
theorem eagerBuildsBeforeAnyRequest : Obligations.EagerBuildsBeforeAnyRequest := by
  intro s he hp hhead
  have hstart : step s = .next (buildStart s) := by
    rw [step_eager_of_unsettled s he (by rw [hp]; rfl) hhead, builderStep_of_triggered s hp (triggered_of_eager s he)]
  have hfinish : step (buildStart s) = .next (builderStep (buildStart s)) :=
    step_eager_of_unsettled (buildStart s) he rfl hhead
  refine ⟨builderStep (buildStart s), ?run, buildFinish_settled (buildStart s), ?schedule, ?readers⟩
  case run =>
    rw [run_of_step 1 _ _ hstart, run_of_step 0 _ _ hfinish]
    rfl
  case schedule => rw [builderStep_schedule, buildStart_schedule]
  case readers => rw [builderStep_readers, buildStart_readers]

/-! ### Under `Lazy` -/

/-- `build_finish` changes `INIT` and its register alone. -/
theorem buildFinish_eq_withPhase (s : State) : buildFinish s = { s with phase := (buildFinish s).phase } := by
  unfold buildFinish
  cases validate s.spec <;> rfl

/-- 40_construct.md R90: where a trigger is present, two turns of the Builder end BUILD and change nothing else. -/
theorem run_builder_twice (k : Nat) (s : State) (rest : List Turn) (hp : s.phase = .uninit) (ht : s.triggered = true)
    (hs : s.schedule = .builder :: .builder :: rest) :
    Host.Core.run Sys2Proof.core (k + 2) s =
      Host.Core.run Sys2Proof.core k { s with schedule := rest, phase := (buildFinish s).phase } := by
  have hstart : step s = .next (buildStart { s with schedule := .builder :: rest }) := by
    rw [step_builder s _ hs, builderStep_of_triggered { s with schedule := .builder :: rest } hp ht]
  have hfinish : step (buildStart { s with schedule := .builder :: rest }) =
      .next (buildFinish (buildStart { s with schedule := rest })) :=
    (step_builder _ rest rfl).trans (congrArg _ (builderStep_of_building (buildStart { s with schedule := rest }) rfl))
  rw [run_of_step (k + 1) _ _ hstart, run_of_step k _ _ hfinish, buildFinish_eq_withPhase,
    buildFinish_phase_congr (buildStart { s with schedule := rest }) s rfl]
  rfl

/-- Where the ports are open, the scheduled turn of a Reader is taken. -/
theorem step_reader_of_open (s : State) (p : Nat) (rest : List Turn) (r : Reader) (ho : s.portsOpen = true)
    (hs : s.schedule = .reader p :: rest) (hr : s.readers[p]? = some r) :
    step s = .next (afterTurn s p rest (turnEffect s.spec s.phase r)) := by
  rw [step_reader s p rest ho hs]
  exact readerTurn_of_port p { s with schedule := rest } r hr

/-- A Reader that has presented `w`, which it holds out, and has the words `ws` left. -/
def asked (r : Reader) (w : ReqWord) (ws : List ReqWord) : Reader := Reader.holding (.request w) { r with todo := ws }

/-- 41_lookup.md R103: before BUILD has ended, the turn of a Reader whose next request waits for it leaves the request held
out. -/
theorem turnEffect_of_waits (spec : List Descriptor) (p : Phase) (r : Reader) (w : ReqWord) (ws : List ReqWord)
    (hset : p.settled = false) (hh : r.held = none) (ht : r.todo = w :: ws) (hw : waits (decodeRequest w) = true) :
    turnEffect spec p r = asked r w ws := by
  have hhold : codeEffect spec p (.request w) = Reader.holding (.request w) :=
    calc codeEffect spec p (.request w)
        = portEffect spec p (decodeRequest w) := rfl
      _ = Reader.holding (encode (decodeRequest w)) := portEffect_of_waits spec p _ hset hw
      _ = Reader.holding (.request w) := by rw [encode_decodeRequest]
  simp only [turnEffect, hh, ht, hhold, asked]

/-- The state in which BUILD has ended and port `p` still holds the first request `w` out. -/
def builtWhileAsked (s : State) (p : Nat) (r : Reader) (w : ReqWord) (ws : List ReqWord) (rest : List Turn) : State :=
  { afterTurn s p rest (asked r w ws) with phase := (buildFinish s).phase }

theorem builtWhileAsked_self (s : State) (p : Nat) (r : Reader) (w : ReqWord) (ws : List ReqWord) (rest : List Turn)
    (hr : s.readers[p]? = some r) : (builtWhileAsked s p r w ws rest).readers[p]? = some (asked r w ws) :=
  afterTurn_self s p rest r _ hr

/-- 41_lookup.md R103, 40_construct.md R97: under `Lazy` a first request that waits is held out, which is the trigger of the
Builder's two steps. -/
theorem run_until_built (k : Nat) (s : State) (p : Nat) (r : Reader) (w : ReqWord) (ws : List ReqWord) (rest : List Turn)
    (hpol : s.policy = .lazy) (hp : s.phase = .uninit) (hr : s.readers[p]? = some r) (hh : r.held = none)
    (ht : r.todo = w :: ws) (hw : waits (decodeRequest w) = true)
    (hs : s.schedule = .reader p :: .builder :: .builder :: rest) :
    Host.Core.run Sys2Proof.core (k + 3) s =
      Host.Core.run Sys2Proof.core k (builtWhileAsked s p r w ws rest) := by
  have hask : step s = .next (afterTurn s p (.builder :: .builder :: rest) (asked r w ws)) := by
    rw [step_reader_of_open s p _ r (portsOpen_of_lazy s hpol) hs hr,
      turnEffect_of_waits s.spec s.phase r w ws (by rw [hp]; rfl) hh ht hw]
  have htrigger : (afterTurn s p (.builder :: .builder :: rest) (asked r w ws)).triggered = true :=
    triggered_of_held _ p _ (afterTurn_self s p _ r _ hr) rfl
  rw [run_of_step (k + 2) s _ hask,
    run_builder_twice k (afterTurn s p (.builder :: .builder :: rest) (asked r w ws)) rest hp htrigger rfl]
  exact congrArg (fun ph => Host.Core.run Sys2Proof.core k { afterTurn s p rest (asked r w ws) with phase := ph })
    (buildFinish_phase_congr _ s rfl)

/-- 41_lookup.md R103: the request held out while BUILD ran is then offered again, and its turn goes by what BUILD left. -/
theorem run_first_request (s : State) (p : Nat) (r : Reader) (w : ReqWord) (ws : List ReqWord) (rest : List Turn)
    (hpol : s.policy = .lazy) (hp : s.phase = .uninit) (hr : s.readers[p]? = some r) (hh : r.held = none)
    (ht : r.todo = w :: ws) (hw : waits (decodeRequest w) = true)
    (hs : s.schedule = .reader p :: .builder :: .builder :: .reader p :: rest) :
    Host.Core.run Sys2Proof.core 4 s =
      .next (afterTurn (builtWhileAsked s p r w ws (.reader p :: rest)) p rest
        (portEffect s.spec (buildFinish s).phase (decodeRequest w) (asked r w ws))) := by
  have hoffer := step_reader_of_settled (builtWhileAsked s p r w ws (.reader p :: rest)) p rest (asked r w ws)
    (buildFinish_settled s) rfl (builtWhileAsked_self s p r w ws _ hr)
  rw [run_until_built 1 s p r w ws _ hpol hp hr hh ht hw hs, run_of_step 0 _ _ hoffer]
  rfl

/-- Settles O47: BUILD is held out, which starts the Builder, and once BUILD has ended it gets the status. -/
theorem explicitBuildBuildsAndReportsTheStatus : Obligations.ExplicitBuildBuildsAndReportsTheStatus := by
  intro s p r x ws rest hpol hp hr hh ht hs
  have hbuild : decodeRequest (0b011#3 ++ x) = .build x := decodeRequest_of_encode (.build x) _ rfl rfl
  have hrun := run_first_request s p r _ ws rest hpol hp hr hh ht (by rw [hbuild]; rfl) hs
  rw [hbuild, portEffect_build_of_settled _ _ x (buildFinish_settled s)] at hrun
  refine ⟨_, _, hrun, rfl, rfl, afterTurn_self _ p rest _ _ (builtWhileAsked_self s p r _ ws _ hr), rfl, fun hv => ?ready,
    fun info hv => ?failed⟩
  case ready =>
    have hphase : (buildFinish s).phase = .ready (deriveIndex s.spec) := by
      rw [buildFinish_of_ok s (validate_of_specValid s.spec hv)]
    exact ⟨hphase, by rw [answered_resp, hphase]; rfl⟩
  case failed =>
    have hphase : (buildFinish s).phase = .failed info := by rw [buildFinish_of_error s info hv]
    exact ⟨hphase, by rw [answered_resp, hphase]; rfl⟩

end Sys2Proof.Proofs
end

section
/-! PROOFS. Requests that get no answer: before BUILD has ended what waits for it is held out, and after a failure every read
request is, for ever. The proofs of `RequestsHoldUntilBuildHasEnded`, `ReadsGetNoAnswerAfterFailure` and
`StuckReadersStayStuck`. -/

namespace Sys2Proof.Proofs

open Sys2Proof.Machine Sys2Proof.Claims

/-! ### Held out -/

/-- An instruction whose effect on its port is to hold its code out is held out there, and changes nothing else. -/
theorem holds_of_portEffect (i : Instr) (s : State) (r : Reader) (h : AtPort s r)
    (he : portEffect s.spec s.phase i = Reader.holding (encode i)) : Holds i s r := by
  rw [Holds, exec_of_port i s r h, he]
  rfl

/-- 41_lookup.md R103, R104: outside `Ready` an opcode byte is held out, whether the default map holds it or not. -/
theorem runCode_opcode_of_not_ready (b : Byte) (s : State) (r : Reader) (h : AtPort s r)
    (hp : s.phase.initState ≠ .ready) : runCode (.opcode b) s = .next (withReader s (heldOut r (.opcode b))) := by
  rw [runCode_opcode, presentOpcode_of_port b s r h, opcodeEffect_of_not_ready _ _ b hp, holding_eq_heldOut]

/-- Settles O23: what waits for BUILD is held out before BUILD has ended, and so is every opcode byte. -/
theorem requestsHoldUntilBuildHasEnded : Obligations.RequestsHoldUntilBuildHasEnded := by
  intro s r h hset
  exact ⟨fun i hw => holds_of_portEffect i s r h (portEffect_of_waits s.spec s.phase i hset hw),
    fun b => runCode_opcode_of_not_ready b s r h (initState_ne_ready_of_not_settled s.phase hset)⟩

/-- 41_lookup.md R104: after a failure every read request is held out. -/
theorem portEffect_failed_of_reads (spec : List Descriptor) (info : FailInfo) (i : Instr) (hr : reads i = true) :
    portEffect spec (.failed info) i = Reader.holding (encode i) := by
  cases i
  case idle => cases hr
  case status => cases hr
  case reserved => cases hr
  case build => cases hr
  all_goals rfl

/-- Settles O24: a read request is held out in `Failed`, and so is every opcode byte. -/
theorem readsGetNoAnswerAfterFailure : Obligations.ReadsGetNoAnswerAfterFailure := by
  intro s r info h hp
  refine ⟨fun i hr => holds_of_portEffect i s r h ?_, fun b => runCode_opcode_of_not_ready b s r h ?_⟩
  · rw [hp, portEffect_failed_of_reads s.spec info i hr]
  · simp [hp]

/-! ### A stuck request offered again -/

/-- 41_lookup.md R104: in `Failed` an instruction that waits for BUILD and whose code has no answer is a read. -/
theorem reads_of_not_answerable (info : FailInfo) (c : Code) (i : Instr) (hd : decode c = .ok i)
    (hw : waits i = true) (ha : answerable (.failed info) c = false) : reads i = true := by
  cases i
  case build x => simp [answerable, hd] at ha
  all_goals exact hw

/-- The effect of an opcode byte as a code is that of presenting it, whether the default map holds it or not. -/
theorem codeEffect_opcode_byte (spec : List Descriptor) (p : Phase) (b : Byte) :
    codeEffect spec p (.opcode b) = opcodeEffect spec p b := by
  cases hd : decodeOpcode b with
  | ok i => simp only [codeEffect, decode, hd, codeEffect_opcode spec p b i (encode_of_decodeOpcode b i hd)]
  | error e =>
    obtain rfl := decodeOpcode_error b e hd
    simp only [codeEffect, decode, hd]

/-- 41_lookup.md R104: in `Failed` a code that may be held out and has no answer is held out again. -/
theorem codeEffect_of_not_answerable (spec : List Descriptor) (info : FailInfo) (c : Code) (hh : holdable c = true)
    (ha : answerable (.failed info) c = false) : codeEffect spec (.failed info) c = Reader.holding c := by
  cases c with
  | opcode b => rw [codeEffect_opcode_byte, opcodeEffect_of_not_ready spec (.failed info) b (by simp)]
  | request w =>
    have hw : waits (decodeRequest w) = true := by rwa [← holdable_of_decode (.request w) _ rfl]
    calc codeEffect spec (.failed info) (.request w)
        = portEffect spec (.failed info) (decodeRequest w) := rfl
      _ = Reader.holding (encode (decodeRequest w)) :=
        portEffect_failed_of_reads spec info _ (reads_of_not_answerable info _ _ rfl hw ha)
      _ = Reader.holding (.request w) := by rw [encode_decodeRequest]

/-- 41_lookup.md R103, R104: what a stuck port in order is: in `Failed` it shows no response and holds out a code that may be
held out and has no answer. -/
theorem stuck_cases (p : Phase) (r : Reader) (hok : r.portOk = true) (hst : r.stuck p = true) :
    ∃ info c, p = .failed info ∧ r.held = some c ∧ r.resp = none ∧ holdable c = true ∧
      answerable (.failed info) c = false := by
  cases hh : r.held with
  | none => simp [Reader.stuck, hh] at hst
  | some c =>
    cases p with
    | failed info =>
      obtain ⟨hhold, hresp⟩ : holdable c = true ∧ r.resp = none := by simpa [Reader.portOk, hh] using hok
      exact ⟨info, c, rfl, rfl, hresp, hhold, by simpa [Reader.stuck, hh] using hst⟩
    | _ => simp [Reader.stuck] at hst

/-! ### Whoever acts -/

/-- A turn on port `q` leaves the record `r` of port `p` alone, or port `p` is that port. -/
theorem afterTurn_cases (s : State) (p q : Nat) (rest : List Turn) (r x y : Reader) (hr : s.readers[p]? = some r)
    (hx : s.readers[q]? = some x) :
    (afterTurn s q rest y).readers[p]? = some r ∨ x = r ∧ (afterTurn s q rest y).readers[p]? = some y := by
  by_cases hpq : p = q
  · subst hpq
    exact .inr ⟨Option.some.inj (hx.symm.trans hr), afterTurn_self s p rest r y hr⟩
  · exact .inl ((afterTurn_other s q p rest y hpq).trans hr)

theorem turnEffect_of_held (spec : List Descriptor) (p : Phase) (r : Reader) (c : Code) (hc : r.held = some c) :
    turnEffect spec p r = codeEffect spec p c r := by
  simp only [turnEffect, hc]

/-- A step without a reset leaves a port that holds a code out alone, or offers it that code again, with the values its engine
may have supplied for the turn. -/
theorem step_of_held (s t : State) (p : Nat) (r : Reader) (c : Code) (hn : NoReset s) (hr : s.readers[p]? = some r)
    (hc : r.held = some c) (h : step s = .next t) :
    t.readers[p]? = some r ∨ ∃ e, t.readers[p]? = some (codeEffect s.spec s.phase c { r with engine := e }) := by
  rcases step_cases s t h with ⟨rest, -, rfl⟩ | ⟨rest, hs, -⟩ | ⟨-, rfl⟩ | ⟨q, rest, -, -, ht⟩ | ⟨q, e, rest, -, -, ht⟩
  · exact .inl (by simpa using hr)
  · exact absurd rfl (hn .reset (by simp [hs]))
  · exact .inl hr
  · obtain ⟨x, hx, -⟩ := readerTurn_next q _ t ht
    rw [readerTurn_of_port q _ x hx] at ht
    cases ht
    rcases afterTurn_cases s p q rest r x (turnEffect s.spec s.phase x) hr hx with hkept | ⟨rfl, hturn⟩
    · exact .inl hkept
    · exact .inr ⟨x.engine, hturn.trans (congrArg some (turnEffect_of_held s.spec s.phase x c hc))⟩
  · obtain ⟨x, c', hx, hheld, rfl⟩ := engineTurn_next q e _ t ht
    rcases afterTurn_cases s p q rest r x (codeEffect s.spec s.phase c' { x with engine := e }) hr hx with
      hkept | ⟨rfl, hturn⟩
    · exact .inl hkept
    · obtain rfl : c = c' := by simpa [hc] using hheld
      exact .inr ⟨e, hturn⟩

/-- In `u` BUILD has failed with `info`, no reset is scheduled, and port `p` has the record `r` but for the values its engine
supplies. -/
def KeepsPort (info : FailInfo) (p : Nat) (r : Reader) (u : State) : Prop :=
  NoReset u ∧ u.phase = .failed info ∧ ∃ e, u.readers[p]? = some { r with engine := e }

/-- 41_lookup.md R104, 60_exceptions.md R247: a step keeps a stuck port, whoever acts. -/
theorem step_keepsPort (info : FailInfo) (p : Nat) (r : Reader) (c : Code) (hc : r.held = some c) (hresp : r.resp = none)
    (hh : holdable c = true) (ha : answerable (.failed info) c = false) (u v : State) (hu : KeepsPort info p r u)
    (h : step u = .next v) : KeepsPort info p r v := by
  obtain ⟨hn, hp, e, hr⟩ := hu
  refine ⟨step_noReset u v hn h, (step_settled_phase u v hn (by rw [hp]; rfl) h).trans hp, ?_⟩
  rcases step_of_held u v p _ c hn hr hc h with hkept | ⟨e', hoffered⟩
  · exact ⟨e, hkept⟩
  · refine ⟨e', hoffered.trans ?_⟩
    rw [hp, codeEffect_of_not_answerable u.spec info c hh ha]
    simp only [Reader.holding, hc, hresp]

/-- Settles O25: every step keeps the stuck port, which shows no response from the start. -/
theorem stuckReadersStayStuck : Obligations.StuckReadersStayStuck := by
  intro k s t p r hn hr hok hst h
  obtain ⟨info, c, hp, hc, hresp, hh, ha⟩ := stuck_cases s.phase r hok hst
  obtain ⟨-, -, e, ht⟩ := run_keeps (KeepsPort info p r) (step_keepsPort info p r c hc hresp hh ha) k s t
    ⟨hn, hp, r.engine, hr⟩ h
  exact ⟨e, by rw [ht, hresp]⟩

end Sys2Proof.Proofs
end

section
/-! PROOFS. What a lookup answers: LOOKUP by the index, by the rows of a valid table and on the default table, the ROM rows by
the table, and the first LOOKUP under `Lazy`; and that no other port matters. The proofs of `LookupFollowsTheIndex`,
`LookupHitsExactlyTheRows`, `WorkedLookupsOfTheSource`, `RomRowsRunByTheTableInTheMachine`,
`FirstLookupBuildsTheTableAndIsAnswered` and `OtherPortsDoNotMatter`. -/

namespace Sys2Proof.Proofs

open Sys2Proof.Machine Sys2Proof.Claims

/-! ### LOOKUP by the index -/

theorem lookupResponse_of_row (spec : List Descriptor) (idx : Index) (b : Byte) (i : Nat) (d : Descriptor)
    (hi : idx[b.toNat]? = some (some i)) (hd : spec[i]? = some d) : lookupResponse spec idx b = .hit d := by
  simp [lookupResponse, romRead, List.getD_eq_getElem?_getD, hi, hd]

theorem lookupResponse_of_none (spec : List Descriptor) (idx : Index) (b : Byte) (hi : idx[b.toNat]? = some none) :
    lookupResponse spec idx b = .miss := by
  simp [lookupResponse, romRead, List.getD_eq_getElem?_getD, hi]

/-- 41_lookup.md R100: in `Ready` LOOKUP is answered through the index. -/
theorem portEffect_lookup_of_ready (spec : List Descriptor) (idx : Index) (b : Byte) :
    portEffect spec (.ready idx) (.lookup b) = Reader.answered (lookupResponse spec idx b) := rfl

theorem answers_lookup (s : State) (r : Reader) (idx : Index) (b : Byte) (h : AtPort s r) (hp : s.phase = .ready idx) :
    Answers (.lookup b) s r (lookupResponse s.spec idx b) :=
  answers_of_portEffect (.lookup b) s r _ h (by rw [hp, portEffect_lookup_of_ready])

/-- Settles O18: in `Ready` the answer is the index's, and elsewhere LOOKUP is a read operation that is held out. -/
theorem lookupFollowsTheIndex : Obligations.LookupFollowsTheIndex := by
  refine ⟨fun b => decodeRequest_of_encode (.lookup b) _ rfl rfl,
    fun s r idx b h hp => ⟨fun i d hi hd => ?hit, fun hi => ?miss⟩, fun s r b h hp => ?held, fun d => ⟨rfl, rfl, rfl⟩, rfl, rfl⟩
  case hit =>
    rw [← lookupResponse_of_row s.spec idx b i d hi hd]
    exact answers_lookup s r idx b h hp
  case miss =>
    rw [← lookupResponse_of_none s.spec idx b hi]
    exact answers_lookup s r idx b h hp
  case held => exact holds_of_portEffect (.lookup b) s r h (readEffect_of_not_ready s.phase _ _ hp)

/-! ### LOOKUP by the rows -/

/-- 41_lookup.md R106: on a valid table the derived index leads LOOKUP of a row's opcode to that row. -/
theorem lookupResponse_deriveIndex_of_mem (spec : List Descriptor) (hv : SpecValid spec) (d : Descriptor) (hd : d ∈ spec) :
    lookupResponse spec (deriveIndex spec) d.opcode = .hit d := by
  simp only [lookupResponse, romRead_deriveIndex_of_mem spec d hv hd]

/-- 41_lookup.md R102: on a valid table LOOKUP of a byte that is no row's opcode is a miss. -/
theorem lookupResponse_deriveIndex_of_absent (spec : List Descriptor) (hv : SpecValid spec) (b : Byte)
    (hb : ∀ d ∈ spec, d.opcode ≠ b) : lookupResponse spec (deriveIndex spec) b = .miss := by
  simp only [lookupResponse, romRead_deriveIndex_of_absent spec b hv hb]

/-- 30_encoding.md R63: the lengths are 1, 2 and 3. -/
theorem expectedLength_bounds (m : Mode) : 1 ≤ expectedLength m ∧ expectedLength m ≤ 3 := by
  cases m <;> decide

/-- Settles O19: in `Ready` the table is valid and the index derived from it, so the answer goes by the rows. -/
theorem lookupHitsExactlyTheRows : Obligations.LookupHitsExactlyTheRows := by
  intro s r idx b h hok hp
  obtain ⟨hv, rfl⟩ : SpecValid s.spec ∧ idx = deriveIndex s.spec := by rwa [hp] at hok
  refine ⟨?hit, answers_lookup_of_absent s r b h hv hp⟩
  rintro d hd rfl
  have hlen : d.length = expectedLength d.mode := hv.1 d hd
  have hanswer := answers_lookup s r _ d.opcode h hp
  rw [lookupResponse_deriveIndex_of_mem s.spec hv d hd] at hanswer
  exact ⟨hanswer, hlen, hlen ▸ expectedLength_bounds d.mode⟩

/-- Settles O37: three of the bytes are opcodes of rows of the default table, and `0xFF` is none. -/
theorem workedLookupsOfTheSource : Obligations.WorkedLookupsOfTheSource := by
  rintro s r h hspec hok ⟨idx, hp⟩
  have hit : ∀ d ∈ defaultSpec, Answers (.lookup d.opcode) s r (.hit d) := fun d hd =>
    ((lookupHitsExactlyTheRows s r idx d.opcode h hok hp).1 d (hspec ▸ hd) rfl).1
  have habsent : ∀ d ∈ s.spec, d.opcode ≠ 0xFF := by rw [hspec]; decide
  exact ⟨hit rowLdaImm (by decide), hit rowStaZp (by decide), hit rowInx (by decide),
    (lookupHitsExactlyTheRows s r idx 0xFF h hok hp).2 habsent⟩

/-! ### The ROM rows by the table -/

/-- Settles O30: a ROM row presents its opcode byte, and a byte presented goes by the table. -/
theorem romRowsRunByTheTableInTheMachine : Obligations.RomRowsRunByTheTableInTheMachine := by
  intro i b s r hb h hok hw
  obtain ⟨hhit, hmiss, -⟩ := presentOpcode_goesByTheTable b s r h hok
  rw [← exec_of_encode_opcode i b s hb] at hhit hmiss
  exact ⟨hhit hw, hmiss hw⟩

/-! ### The first LOOKUP under `Lazy` -/

/-- Settles O46: LOOKUP is held out, which starts the Builder, and once BUILD has ended it goes by the table BUILD left. -/
theorem firstLookupBuildsTheTableAndIsAnswered : Obligations.FirstLookupBuildsTheTableAndIsAnswered := by
  intro s p r b ws rest hpol hp hr hh ht hs
  have hlookup : decodeRequest (0b001#3 ++ b) = .lookup b := decodeRequest_of_encode (.lookup b) _ rfl rfl
  have hrun := run_first_request s p r _ ws rest hpol hp hr hh ht (by rw [hlookup]; rfl) hs
  rw [hlookup] at hrun
  refine ⟨_, _, hrun, rfl, rfl, afterTurn_self _ p rest _ _ (builtWhileAsked_self s p r _ ws _ hr), fun hv => ?ready,
    fun info hv => ?failed⟩
  case ready =>
    have hphase : (buildFinish s).phase = .ready (deriveIndex s.spec) := by
      rw [buildFinish_of_ok s (validate_of_specValid s.spec hv)]
    rw [hphase, portEffect_lookup_of_ready]
    refine ⟨hphase, rfl, ?_, fun hb => ?_⟩
    · rintro d hd rfl
      rw [answered_resp, lookupResponse_deriveIndex_of_mem s.spec hv d hd]
    · rw [answered_resp, lookupResponse_deriveIndex_of_absent s.spec hv b hb]
  case failed =>
    have hphase : (buildFinish s).phase = .failed info := by rw [buildFinish_of_error s info hv]
    rw [hphase, portEffect_failed_of_reads s.spec info (.lookup b) rfl]
    exact ⟨hphase, rfl, rfl⟩

/-! ### One port alone -/

/-- Settles O48: on both ports the record goes by the same effect, a function of the table and the phase. -/
theorem otherPortsDoNotMatter : Obligations.OtherPortsDoNotMatter := by
  intro i s s' r h h' hspec hp
  refine ⟨_, _, portEffect s.spec s.phase i r, exec_of_port i s r h, exec_of_port i s' r h', setActive_self s _ r h, ?_⟩
  rw [hspec, hp]
  exact setActive_self s' _ r h'

end Sys2Proof.Proofs
end

section
/-! PROOFS. The sequence face: COUNT and ROWREAD on a built table, and their agreement with LOOKUP. The proofs of
`RowReadReturnsTheRow`, `CountReturnsTheNumberOfRows` and `SequenceFaceAgreesWithLookup`. -/

namespace Sys2Proof.Proofs

open Sys2Proof.Machine Sys2Proof.Claims

/-! ### ROWREAD -/

theorem rowReadResponse_of_row (spec : List Descriptor) (i : Byte) (d : Descriptor) (hd : spec[i.toNat]? = some d) :
    rowReadResponse spec i = .row d := by
  simp only [rowReadResponse, rowRead, hd]

theorem rowReadResponse_of_length_le (spec : List Descriptor) (i : Byte) (h : spec.length ≤ i.toNat) :
    rowReadResponse spec i = .noRow := by
  simp only [rowReadResponse, rowRead, List.getElem?_eq_none h]

/-- 42_enumerate.md R111: in `Ready` ROWREAD is answered from the table. -/
theorem portEffect_rowRead_of_ready (spec : List Descriptor) (idx : Index) (i : Byte) :
    portEffect spec (.ready idx) (.rowRead i) = Reader.answered (rowReadResponse spec i) := rfl

theorem answers_rowRead (s : State) (r : Reader) (idx : Index) (i : Byte) (h : AtPort s r) (hp : s.phase = .ready idx) :
    Answers (.rowRead i) s r (rowReadResponse s.spec i) :=
  answers_of_portEffect (.rowRead i) s r _ h (by rw [hp, portEffect_rowRead_of_ready])

theorem answers_rowRead_of_row (s : State) (r : Reader) (idx : Index) (i : Byte) (d : Descriptor) (h : AtPort s r)
    (hp : s.phase = .ready idx) (hd : s.spec[i.toNat]? = some d) : Answers (.rowRead i) s r (.row d) := by
  rw [← rowReadResponse_of_row s.spec i d hd]
  exact answers_rowRead s r idx i h hp

/-- Settles O20: in `Ready` the answer is the table's, and elsewhere ROWREAD is a read operation that is held out. -/
theorem rowReadReturnsTheRow : Obligations.RowReadReturnsTheRow := by
  refine ⟨fun i => decodeRequest_of_encode (.rowRead i) _ rfl rfl,
    fun s r idx i h hp => ⟨fun d hd => answers_rowRead_of_row s r idx i d h hp hd, fun hi => ?noRow⟩,
    fun s r i h hp => ?held, fun d => rfl⟩
  case noRow =>
    rw [← rowReadResponse_of_length_le s.spec i hi]
    exact answers_rowRead s r idx i h hp
  case held => exact holds_of_portEffect (.rowRead i) s r h (readEffect_of_not_ready s.phase _ _ hp)

/-! ### COUNT -/

/-- 42_enumerate.md R113: in `Ready` COUNT is answered with the number of rows. -/
theorem portEffect_count_of_ready (spec : List Descriptor) (idx : Index) (x : Byte) :
    portEffect spec (.ready idx) (.count x) = Reader.answered (.count spec.length) := rfl

theorem answers_count (s : State) (r : Reader) (idx : Index) (x : Byte) (h : AtPort s r) (hp : s.phase = .ready idx) :
    Answers (.count x) s r (.count s.spec.length) :=
  answers_of_portEffect (.count x) s r _ h (by rw [hp, portEffect_count_of_ready])

/-- 10_state.md R33: in `Ready` the table is valid. -/
theorem specValid_of_ready (s : State) (idx : Index) (hok : PhaseOk s.spec s.phase) (hp : s.phase = .ready idx) :
    SpecValid s.spec := by
  rw [hp] at hok
  exact hok.1

/-- Settles O21: in `Ready` the table is valid, so it has at most 256 rows, and 26 bits hold their number. -/
theorem countReturnsTheNumberOfRows : Obligations.CountReturnsTheNumberOfRows := by
  refine ⟨fun x => decodeRequest_of_encode (.count x) _ rfl rfl,
    fun s r x h hp => holds_of_portEffect (.count x) s r h (readEffect_of_not_ready s.phase _ _ hp),
    fun s r idx x h hok hp => ?_⟩
  have hlen : s.spec.length ≤ 256 := length_le_of_specValid s.spec (specValid_of_ready s idx hok hp)
  exact ⟨hlen, answers_count s r idx x h hp, rfl, if_pos hlen⟩

/-! ### The expansion of ALL -/

theorem allRows_of_ready (s : State) (idx : Index) (hp : s.phase = .ready idx) : allRows s = some s.spec := by
  simp only [allRows, hp]

theorem allRequests_length (n : Nat) : (allRequests n).length = n + 1 := by
  simp [allRequests]

theorem allRequests_zero (n : Nat) : (allRequests n)[0]? = some (requestWord 0b100 0) := rfl

/-- 30_encoding.md R68: word `k + 1` of the expansion is the ROWREAD of row `k`. -/
theorem allRequests_succ (n k : Nat) (hk : k < n) :
    (allRequests n)[k + 1]? = some (requestWord 0b010 (BitVec.ofNat 8 k)) := by
  simp [allRequests, hk]

/-- 42_enumerate.md R112: the rows of a valid table have distinct opcodes, so none occurs twice. -/
theorem count_eq_one_of_specValid (spec : List Descriptor) (hv : SpecValid spec) (d : Descriptor) (hd : d ∈ spec) :
    spec.count d = 1 :=
  List.count_eq_one_of_mem hv.2.of_map hd

/-- Settles O26: the first word of the expansion is COUNT, the others read the rows in order, each index in one byte as there
are at most 256 rows; and on a valid table LOOKUP of a row's opcode hits that row. -/
theorem sequenceFaceAgreesWithLookup : Obligations.SequenceFaceAgreesWithLookup := by
  rintro s r h hok ⟨idx, hp⟩
  have hv : SpecValid s.spec := specValid_of_ready s idx hok hp
  refine ⟨allRows_of_ready s idx hp, allRequests_length _, fun w hw => ?count, fun k d hk => ⟨fun w hw => ?row, ?hit, ?once⟩⟩
  case count =>
    obtain rfl := Option.some.inj ((allRequests_zero _).symm.trans hw)
    rw [decodeRequest_of_encode (.count 0) _ rfl rfl]
    exact answers_count s r idx 0 h hp
  case row =>
    have hlt : k < s.spec.length := (List.getElem?_eq_some_iff.1 hk).1
    have hlen : s.spec.length ≤ 256 := length_le_of_specValid s.spec hv
    obtain rfl := Option.some.inj ((allRequests_succ _ k hlt).symm.trans hw)
    rw [decodeRequest_of_encode (.rowRead (BitVec.ofNat 8 k)) _ rfl rfl]
    refine answers_rowRead_of_row s r idx _ d h hp ?_
    rwa [toNat_ofNat_of_le k (by omega)]
  case hit =>
    exact ((lookupHitsExactlyTheRows s r idx d.opcode h hok hp).1 d (List.mem_of_getElem? hk) rfl).1
  case once => exact count_eq_one_of_specValid s.spec hv d (List.mem_of_getElem? hk)

end Sys2Proof.Proofs
end

section
/-! PROOFS. The rows of the default table by their descriptors: what a row rule of files 43 to 46 comes down to, and the one-byte
rows BRK to SEI. The proof of `ImplicitRowsRun`. -/

namespace Sys2Proof.Proofs

open Sys2Proof.Machine Sys2Proof.Claims

/-- 47_penalty_rules.md R221, R226: a row of the default table runs once its place, opcode byte and packed word are known, since
on every valid table a ROM row runs by the row under its opcode byte. -/
theorem rowRuns_of_defaultSpec (i : Instr) (k : Nat) (d : Descriptor) (w : RomWord) (hb : encode i = .opcode d.opcode)
    (hk : defaultSpec[k]? = some d) (hw : pack d = some w) : RowRuns i k d w := by
  refine ⟨hb, hk, hw, fun s r h hspec hok hready => ?_⟩
  have hd : d ∈ s.spec := hspec ▸ List.mem_of_getElem? hk
  exact (romRowsRunByTheTableInTheMachine i d.opcode s r hb h hok hready).1 d hd rfl

/-- Settles O31: the place, opcode byte and packed word of each of the 25 rows are computed from the default table. -/
theorem implicitRowsRun : Obligations.ImplicitRowsRun := by
  unfold Obligations.ImplicitRowsRun
  constructorm* _ ∧ _ <;> exact rowRuns_of_defaultSpec _ _ _ _ rfl rfl rfl

end Sys2Proof.Proofs
end

section
/-! PROOFS. The rows of file 44 on the default table: AND, ORA, LSR and ASL. The proofs of `LogicRowsRun` and `ShiftRowsRun`. -/

namespace Sys2Proof.Proofs

open Sys2Proof.Machine Sys2Proof.Claims

/-- Settles O32: each of the 16 rows runs by its descriptor once its place, opcode byte and packed word, penalty markers
included, are computed from the default table. -/
theorem logicRowsRun : Obligations.LogicRowsRun := by
  unfold Obligations.LogicRowsRun
  constructorm* _ ∧ _ <;> exact rowRuns_of_defaultSpec _ _ _ _ rfl rfl rfl

/-- Settles O33: each of the 10 rows runs by its descriptor once its place, opcode byte and packed word are computed from the
default table. -/
theorem shiftRowsRun : Obligations.ShiftRowsRun := by
  unfold Obligations.ShiftRowsRun
  constructorm* _ ∧ _ <;> exact rowRuns_of_defaultSpec _ _ _ _ rfl rfl rfl

end Sys2Proof.Proofs
end

section
/-! PROOFS. The rows of file 45 on the default table: BCC, BCS and BEQ. The proof of `BranchRowsRun`. -/

namespace Sys2Proof.Proofs

open Sys2Proof.Machine Sys2Proof.Claims

/-- Settles O34: each of the three rows runs by its descriptor, branch marker included, once its opcode byte, place and packed
word are computed from the default table. -/
theorem branchRowsRun : Obligations.BranchRowsRun :=
  ⟨rowRuns_of_defaultSpec .bcc 51 _ _ rfl rfl rfl,
    rowRuns_of_defaultSpec .bcs 52 _ _ rfl rfl rfl,
    rowRuns_of_defaultSpec .beq 53 _ _ rfl rfl rfl⟩

end Sys2Proof.Proofs
end

section
/-! PROOFS. The rows of file 46 on the default table: LDA and STA. The proofs of `LoadRowsRun` and `StoreRowsRun`. -/

namespace Sys2Proof.Proofs

open Sys2Proof.Machine Sys2Proof.Claims

/-- Settles O35: each of the 8 rows runs by its descriptor, page-cross markers included, once its opcode byte, place and packed
word are computed from the default table. -/
theorem loadRowsRun : Obligations.LoadRowsRun := by
  unfold Obligations.LoadRowsRun
  constructorm* _ ∧ _ <;> exact rowRuns_of_defaultSpec _ _ _ _ rfl rfl rfl

/-- Settles O36: each of the 7 rows runs by its descriptor, none with a marker, once its opcode byte, place and packed word are
computed from the default table. -/
theorem storeRowsRun : Obligations.StoreRowsRun := by
  unfold Obligations.StoreRowsRun
  constructorm* _ ∧ _ <;> exact rowRuns_of_defaultSpec _ _ _ _ rfl rfl rfl

end Sys2Proof.Proofs
end

section
/-! PROOFS. The report of `validate`: the first row at which a check fails. The proof of
`ValidateReportsTheFirstOffendingRow`. -/

namespace Sys2Proof.Proofs

open Sys2Proof.Machine Sys2Proof.Claims

/-- 60_exceptions.md R245: what `info` says when row `d`, standing after rows with the opcodes `before`, is the one reported,
but for its number. -/
def ReportsRow (before : List Byte) (d : Descriptor) (info : FailInfo) : Prop :=
  info.opcode = d.opcode ∧
    ((d.length ≠ expectedLength d.mode ∧ info.reason = .lengthModeMismatch) ∨
     (d.length = expectedLength d.mode ∧ d.opcode ∈ before ∧ info.reason = .duplicateOpcode))

theorem reportsRow_congr {before before' : List Byte} (d : Descriptor) (info : FailInfo)
    (h : ∀ b, b ∈ before ↔ b ∈ before') : ReportsRow before d info ↔ ReportsRow before' d info := by
  simp only [ReportsRow, h]

/-- The loop goes past a row that passes both checks, and past no other. -/
theorem validateFrom_cons_ok_iff (i : Nat) (seen : List Byte) (d : Descriptor) (ds : List Descriptor) :
    validateFrom i seen (d :: ds) = .ok ↔
      (d.length = expectedLength d.mode ∧ d.opcode ∉ seen) ∧ validateFrom (i + 1) (d.opcode :: seen) ds = .ok := by
  rw [validateFrom]
  split
  · next hlen => simp [hlen]
  · next hlen =>
    split
    · next hseen => simp [hseen]
    · next hseen => simp [hseen, not_not.1 hlen]

/-- The loop reports the row it has come to, or goes past it and reports a later one. -/
theorem validateFrom_cons_error_iff (i : Nat) (seen : List Byte) (d : Descriptor) (ds : List Descriptor)
    (info : FailInfo) :
    validateFrom i seen (d :: ds) = .error info ↔
      (info.row = i ∧ ReportsRow seen d info) ∨
      ((d.length = expectedLength d.mode ∧ d.opcode ∉ seen) ∧
        validateFrom (i + 1) (d.opcode :: seen) ds = .error info) := by
  obtain ⟨reason, row, opcode⟩ := info
  rw [validateFrom, ReportsRow]
  split
  · next hlen => simp [hlen]; tauto
  · next hlen =>
    split
    · next hseen => simp [hseen, not_not.1 hlen]; tauto
    · next hseen => simp [hseen, not_not.1 hlen]

/-- 60_exceptions.md R245: the loop reports row `k` of its rows exactly when it accepts those before it and row `k` fails a
check. -/
theorem validateFrom_error_iff (ds : List Descriptor) (i : Nat) (seen : List Byte) (info : FailInfo) :
    validateFrom i seen ds = .error info ↔
      ∃ k d, ds[k]? = some d ∧ info.row = i + k ∧ validateFrom i seen (ds.take k) = .ok ∧
        ReportsRow (seen ++ (ds.take k).map (·.opcode)) d info := by
  induction ds generalizing i seen with
  | nil => simp [validateFrom]
  | cons d ds ih =>
    rw [validateFrom_cons_error_iff, ih]
    refine (or_congr ?here ?later).trans Nat.or_exists_add_one
    case here => simp [validateFrom]
    case later =>
      simp only [← exists_and_left]
      refine exists_congr fun k => exists_congr fun e => ?_
      have hrow : i + 1 + k = i + (k + 1) := by omega
      have hbefore := reportsRow_congr (before := d.opcode :: seen ++ (ds.take k).map (·.opcode))
        (before' := seen ++ ((d :: ds).take (k + 1)).map (·.opcode)) e info (by simp [or_left_comm])
      rw [List.getElem?_cons_succ, List.take_succ_cons, validateFrom_cons_ok_iff, hrow, hbefore, List.take_succ_cons]
      tauto

/-- Settles O9: the loop's report from row 0 on, where no opcode has been seen, and the rows before it are a valid table
because the loop accepts them. -/
theorem validateReportsTheFirstOffendingRow : Obligations.ValidateReportsTheFirstOffendingRow := by
  intro spec info
  have hvalid (k : Nat) : validateFrom 0 [] (spec.take k) = .ok ↔ SpecValid (spec.take k) :=
    validateAcceptsExactlyConsistentTables _
  rw [validate, validateFrom_error_iff]
  simp only [hvalid, Nat.zero_add, List.nil_append]
  constructor
  · rintro ⟨k, d, hk, rfl, hv, hop, hreason⟩
    exact ⟨d, hk, hop, hv, hreason⟩
  · rintro ⟨d, hk, hop, hv, hreason⟩
    exact ⟨info.row, d, hk, rfl, hv, hop, hreason⟩

end Sys2Proof.Proofs
end

section
/-! PROOFS. Where a step goes on: every instruction at an existing port, and the turn of a reset. The proofs of
`EveryInstructionGoesOnAtItsPort` and `ResetTurnAbandonsBuildAndHeldRequests`. -/

namespace Sys2Proof.Proofs

open Sys2Proof.Machine

/-- Settles O29: every meaning acts on the acting port, which goes on where the port exists and faults where it does not. -/
theorem everyInstructionGoesOnAtItsPort : Obligations.EveryInstructionGoesOnAtItsPort := by
  refine fun i s => ⟨fun hlt => ?port, fun hge => ?noPort⟩
  case port => exact ⟨_, exec_of_port i s _ (List.getElem?_eq_getElem hlt)⟩
  case noPort => rw [exec_eq, onActive_no_port _ s (List.getElem?_eq_none hge)]

theorem step_reset (s : State) (rest : List Turn) (hs : s.schedule = .reset :: rest) :
    step s = .next (reboot { s with schedule := rest }) := by
  simp only [step, takeTurn, hs]

/-- Settles O2: the step is the reset, whose every field is known. -/
theorem resetTurnAbandonsBuildAndHeldRequests : Obligations.ResetTurnAbandonsBuildAndHeldRequests := by
  intro s rest hs
  refine ⟨_, step_reset s rest hs, reboot_phase _, reboot_spec _, reboot_policy _, reboot_schedule _, fun a => ?stream,
    fun p => ?readers⟩
  case stream => rw [reboot_stream]
  case readers => rw [reboot_readers, List.getElem?_map]

end Sys2Proof.Proofs
end

section
/-! PROOFS. The consumer's rules: the bytes an instruction occupies, the two penalties and the charge. The proofs of
`InstructionOccupiesItsLength`, `MarkersAddTheirPenalties` and `ChargeIsBaseCyclesAndPenalties`. -/

namespace Sys2Proof.Proofs

open Sys2Proof.Machine

/-! ### Where the bytes stand -/

/-- 47_penalty_rules.md R221: the opcode byte stands first, the operand bytes after it. -/
theorem instructionAddrs_eq_cons (pc : Addr) (d : Descriptor) (h : 1 ≤ d.length) :
    instructionAddrs pc d = pc :: operandAddrs pc d := by
  have hlen : d.length = operandCount d + 1 := (Nat.sub_add_cancel h).symm
  rw [instructionAddrs, operandAddrs, hlen, List.range_succ_eq_map, List.map_cons, List.map_map]
  exact congrArg (· :: _) (BitVec.add_zero pc)

theorem operandAddrs_length (pc : Addr) (d : Descriptor) : (operandAddrs pc d).length = d.length - 1 := by
  simp [operandAddrs, operandCount]

theorem pcAfter_of_not_taken (pc : Addr) (d : Descriptor) (e : EngineIn) (h : e.transfer = none) :
    pcAfter pc d e = pc + BitVec.ofNat 16 d.length := by
  simp only [pcAfter, h, nextPc]

theorem pcAfter_of_taken (pc t : Addr) (d : Descriptor) (e : EngineIn) (h : e.transfer = some t) :
    pcAfter pc d e = t := by
  simp only [pcAfter, h]

/-- Settles O58: the addresses of the bytes, and the next address by whether control is transferred. -/
theorem instructionOccupiesItsLength : Obligations.InstructionOccupiesItsLength :=
  fun d pc e h => ⟨instructionAddrs_eq_cons pc d h, operandAddrs_length pc d, pcAfter_of_not_taken pc d e,
    fun t => pcAfter_of_taken pc t d e⟩

/-! ### The penalties -/

theorem penaltyP_of_crossed (d : Descriptor) (e : EngineIn) (hp : d.penalty.p = true)
    (h : e.effAddr.toNat / 256 ≠ e.baseAddr.toNat / 256) : penaltyP d e = 1 := by
  rw [penaltyP_eq, if_pos ⟨hp, h.symm⟩]

theorem penaltyP_of_unmarked (d : Descriptor) (e : EngineIn) (hp : d.penalty.p = false) : penaltyP d e = 0 := by
  simp [penaltyP, hp]

theorem penaltyP_of_same_page (d : Descriptor) (e : EngineIn)
    (h : e.effAddr.toNat / 256 = e.baseAddr.toNat / 256) : penaltyP d e = 0 := by
  rw [penaltyP_eq, if_neg fun hc => hc.2 h.symm]

theorem penaltyP_le_one (d : Descriptor) (e : EngineIn) : penaltyP d e ≤ 1 := by
  unfold penaltyP
  split <;> omega

theorem penaltyB_of_unmarked (d : Descriptor) (pc : Addr) (e : EngineIn) (hb : d.penalty.b = false) :
    penaltyB d pc e = 0 := by
  simp [penaltyB, hb]

theorem penaltyB_of_not_taken (d : Descriptor) (pc : Addr) (e : EngineIn) (h : e.transfer = none) :
    penaltyB d pc e = 0 := by
  simp [penaltyB, h]

/-- 47_penalty_rules.md R225: a taken branch costs one cycle within the page of `pc + 2` and two elsewhere. -/
theorem penaltyB_of_taken (d : Descriptor) (pc t : Addr) (e : EngineIn) (hb : d.penalty.b = true)
    (h : e.transfer = some t) :
    penaltyB d pc e = if t.toNat / 256 = (pc + 2).toNat / 256 then 1 else 2 := by
  simp [penaltyB, hb, h, page, refAddr]

theorem penaltyB_le_two (d : Descriptor) (pc : Addr) (e : EngineIn) : penaltyB d pc e ≤ 2 := by
  cases hb : d.penalty.b with
  | false => simp [penaltyB_of_unmarked d pc e hb]
  | true =>
    cases ht : e.transfer with
    | none => simp [penaltyB_of_not_taken d pc e ht]
    | some t =>
      rw [penaltyB_of_taken d pc t e hb ht]
      split <;> omega

/-- Settles O59: each penalty in each of its cases. -/
theorem markersAddTheirPenalties : Obligations.MarkersAddTheirPenalties := by
  refine fun d pc e => ⟨penaltyP_of_crossed d e, ?noP, ?noB, fun t hb ht => ?taken⟩
  case noP => exact fun h => h.elim (penaltyP_of_unmarked d e) (penaltyP_of_same_page d e)
  case noB => exact fun h => h.elim (penaltyB_of_unmarked d pc e) (penaltyB_of_not_taken d pc e)
  case taken =>
    rw [penaltyB_of_taken d pc t e hb ht]
    exact ⟨fun h => if_pos h, fun h => if_neg h⟩

/-! ### The charge -/

/-- 47_penalty_rules.md R226, log 10: without both markers one of the two penalties is absent, and the other is at most two. -/
theorem penalties_le_two (d : Descriptor) (pc : Addr) (e : EngineIn)
    (h : ¬(d.penalty.p = true ∧ d.penalty.b = true)) : penaltyP d e + penaltyB d pc e ≤ 2 := by
  have hP := penaltyP_le_one d e
  have hB := penaltyB_le_two d pc e
  cases hp : d.penalty.p with
  | false => have := penaltyP_of_unmarked d e hp; omega
  | true =>
    have := penaltyB_of_unmarked d pc e (by simpa [hp] using h)
    omega

/-- Settles O60: the charge is the formula of its definition, bounded by the penalties. -/
theorem chargeIsBaseCyclesAndPenalties : Obligations.ChargeIsBaseCyclesAndPenalties := by
  intro d pc e
  have hcharge : cyclesCharged d pc e = d.baseCycles + penaltyP d e + penaltyB d pc e := rfl
  refine ⟨hcharge, ?least, fun h => ?most, fun h => ?unmarked⟩
  case least => omega
  case most =>
    have := penalties_le_two d pc e h
    omega
  case unmarked =>
    have hP := penaltyP_of_unmarked d e (by rw [h])
    have hB := penaltyB_of_unmarked d pc e (by rw [h])
    omega

end Sys2Proof.Proofs
end
